-- ==== Sys2Proof/Word.lean ====
section
/-! DEFINITION. The word types of the block (00_scope.md R8) and their plainest conversions. -/

namespace Sys2Proof

/-- An opcode, enumerant, channel, port, pin or device-register value: 8 bits (R8). -/
abbrev Byte := BitVec 8

/-- A buffer cell, a data-register word, a control register or a count: 16 bits (R8). -/
abbrev Half := BitVec 16

/-- An address, a reference, a raw register value or a descriptor word: 32 bits (R8). -/
abbrev Word := BitVec 32

/-- `zext_16` of a byte (R8). -/
def Byte.toHalf (b : Byte) : Half := b.setWidth 16

/-- `zext_32` of a byte (R8). -/
def Byte.toWord (b : Byte) : Word := b.setWidth 32

/-- `zext_32` of a 16-bit value (R8). -/
def Half.toWord (h : Half) : Word := h.setWidth 32

/-- `v[7:0]` of a 16-bit value (R8). -/
def Half.lowByte (h : Half) : Byte := h.setWidth 8

/-- `v[15:0]` of a 32-bit value (R8). -/
def Word.lowHalf (w : Word) : Half := w.setWidth 16

/-- One bit as a 16-bit value. -/
def bitHalf (b : Bool) : Half := (BitVec.ofBool b).setWidth 16

end Sys2Proof
end

