-- ==== Sys2Proof/Syntax.lean ====
section
/-! DEFINITION. The operations of the block (30_encoding.md R92), the wire header forms (R110, R115), the
command descriptor (R90) and the configuration record (R100), as plain syntax. -/

namespace Sys2Proof

/-- One constructor per row of spec/opcode_table.json. The arguments of an operation are the operand latches of
10_state.md R40 that the operation loads. -/
inductive Instr where
  /-- SPI_INIT: `L_COUNT`, `L_TABLE` (R93, R132). -/
  | spiInit (count : Half) (table : Word)
  /-- SPI_TRANSFER: `L_CH`, `L_COUNT`, `L_BUF` (R94, R137). -/
  | spiTransfer (ch : Byte) (count : Half) (buf : Word)
  /-- SPI_RECEIVE: `L_CH`, `L_COUNT`, `L_BUF` (R94, R140). -/
  | spiReceive (ch : Byte) (count : Half) (buf : Word)
  /-- SPI_REGWRITE: `L_RADDR`, `L_RVALUE` (R95, R143). -/
  | spiRegWrite (addr value : Word)
  /-- SPI_REGREAD: `L_RADDR` (R96, R144). -/
  | spiRegRead (addr : Word)
  /-- ACC_INIT: `L_CH`, `L_PORT`, `L_PIN` (R97, R167). -/
  | accInit (ch port pin : Byte)
  /-- ACC_WRITE, internal: `L_CH`, `L_PORT`, `L_PIN`, `L_ADDR`, `L_VALUE` (R99, R164). -/
  | accWrite (ch port pin addr value : Byte)
  /-- ACC_READ: `L_CH`, `L_PORT`, `L_PIN`, `L_ADDR`, `L_COUNT`, `L_BUF` (R98, R170). -/
  | accRead (ch port pin addr : Byte) (count : Half) (buf : Word)
  /-- CS_ASSERT, internal: `L_PORT`, `L_PIN` (R99, R162). -/
  | csAssert (port pin : Byte)
  /-- CS_DEASSERT, internal: `L_PORT`, `L_PIN` (R99, R163). -/
  | csDeassert (port pin : Byte)
  /-- WIRE_WRITE_MB, the header `01aaaaaa` (R110, R112). -/
  | wireWriteMb (a : BitVec 6)
  /-- WIRE_READ_MB, the header `11aaaaaa` (R110, R112). -/
  | wireReadMb (a : BitVec 6)
  /-- WIRE_WRITE_SB, the header `00aaaaaa` (R110, R115). -/
  | wireWriteSb (a : BitVec 6)
  /-- WIRE_READ_SB, the header `10aaaaaa` (R110, R115). -/
  | wireReadSb (a : BitVec 6)
  deriving DecidableEq, Repr, Inhabited

/-- A command descriptor as it stands at the command port: `word0`, `word1`, `word2`; an operation whose descriptor
is shorter ignores the later words (R90, R91). -/
structure Descriptor where
  word0 : Word
  word1 : Word
  word2 : Word
  deriving DecidableEq, Repr, Inhabited

/-- A configuration record: eight 8-bit fields in the order of R100. -/
structure CfgRecord where
  channel : Byte
  mode : Byte
  role : Byte
  baud : Byte
  ss : Byte
  order : Byte
  xfer : Byte
  size : Byte
  deriving DecidableEq, Repr, Inhabited

/-- The cases in which a descriptor is illegal by its form (R114): its opcode is not in the map of R92, or a field
marked "reserved, must be 0" is nonzero. The third case of R114, an internal opcode at the command port, is not a
matter of form: the layout of R99 decodes, and the port refuses to issue it. -/
inductive Reject where
  | unknownOpcode
  | reservedField
  deriving DecidableEq, Repr

/-- What an instruction encodes to: the words of a command descriptor, or one header byte on the wire. -/
inductive Code where
  | words (ws : List Word)
  | header (b : Byte)
  deriving DecidableEq, Repr

end Sys2Proof
end

