-- ==== Sys2Proof/WellFormed.lean ====
section
/-! DEFINITION. Well-formed instructions: those whose operands the spec admits before anything runs. An ill-formed
one still decodes and still starts; the line that would use the operand refuses it (93: U2, U3, U6). -/

namespace Sys2Proof

/-- A device register address within the six usable address bits, `ADDR <= 0x3F` (R111, R161). -/
def addrUsable (a : Byte) : Bool := a ≤ 0x3F#8

/-- A raw access address that is a multiple of 4 (R75). -/
def addrAligned (a : Word) : Bool := a.toNat % 4 == 0

/-- Whether the operands are among those the spec gives a meaning to: a usable device address (R161), an aligned raw
address (R75), and a table that is not null unless it holds no record (R136). -/
def Instr.wellFormed : Instr → Bool
  | .spiInit count table => count == 0#16 || table != 0#32
  | .spiTransfer _ _ _ => true
  | .spiReceive _ _ _ => true
  | .spiRegWrite addr _ => addrAligned addr
  | .spiRegRead addr => addrAligned addr
  | .accInit _ _ _ => true
  | .accWrite _ _ _ addr _ => addrUsable addr
  | .accRead _ _ _ addr _ _ => addrUsable addr
  | .csAssert _ _ => true
  | .csDeassert _ _ => true
  | .wireWriteMb _ => true
  | .wireReadMb _ => true
  | .wireWriteSb _ => true
  | .wireReadSb _ => true

end Sys2Proof
end

