-- ==== Sys2Proof/Decode.lean ====
section
/-! DEFINITION. Decoding command descriptors (30_encoding.md R90 to R99, R114) and wire header bytes (R110), and the
encoder written from the same tables. -/

namespace Sys2Proof

/-- The opcode map of R92. -/
def Instr.opcode : Instr → Option Byte
  | .spiInit _ _ => some 0x01#8
  | .spiTransfer _ _ _ => some 0x02#8
  | .spiReceive _ _ _ => some 0x03#8
  | .spiRegWrite _ _ => some 0x04#8
  | .spiRegRead _ => some 0x05#8
  | .accInit _ _ _ => some 0x10#8
  | .accWrite _ _ _ _ _ => some 0x11#8
  | .accRead _ _ _ _ _ _ => some 0x12#8
  | .csAssert _ _ => some 0x13#8
  | .csDeassert _ _ => some 0x14#8
  | .wireWriteMb _ => none
  | .wireReadMb _ => none
  | .wireWriteSb _ => none
  | .wireReadSb _ => none

/-- The length of a descriptor is a function of the opcode alone (R91, R92); `none` for a reserved opcode. -/
def descriptorLength (opc : Byte) : Option Nat :=
  if opc = 0x01#8 then some 2
  else if opc = 0x02#8 then some 2
  else if opc = 0x03#8 then some 2
  else if opc = 0x04#8 then some 3
  else if opc = 0x05#8 then some 2
  else if opc = 0x10#8 then some 1
  else if opc = 0x11#8 then some 2
  else if opc = 0x12#8 then some 3
  else if opc = 0x13#8 then some 1
  else if opc = 0x14#8 then some 1
  else none

/-- `v[7:0]` of a descriptor word. -/
def byte0 (w : Word) : Byte := w.extractLsb' 0 8

/-- `v[15:8]` of a descriptor word. -/
def byte1 (w : Word) : Byte := w.extractLsb' 8 8

/-- `v[23:16]` of a descriptor word. -/
def byte2 (w : Word) : Byte := w.extractLsb' 16 8

/-- `v[31:24]` of a descriptor word. -/
def byte3 (w : Word) : Byte := w.extractLsb' 24 8

/-- `v[31:16]` of a descriptor word. -/
def upperHalf (w : Word) : Half := w.extractLsb' 16 16

/-- `v[31:8]` of a descriptor word. -/
def upper24 (w : Word) : BitVec 24 := w.extractLsb' 8 24

/-- The operation a descriptor names, by the formats of R93 to R99; total, rejecting by name what R114 calls illegal
by form. The internal opcodes decode to their operand layout (R99): that they are not issuable is the command port's
matter. -/
def decode (d : Descriptor) : Except Reject Instr :=
  let opc := byte0 d.word0
  if opc = 0x01#8 then
    if byte1 d.word0 = 0#8 then .ok (.spiInit (upperHalf d.word0) d.word1) else .error .reservedField
  else if opc = 0x02#8 then .ok (.spiTransfer (byte1 d.word0) (upperHalf d.word0) d.word1)
  else if opc = 0x03#8 then .ok (.spiReceive (byte1 d.word0) (upperHalf d.word0) d.word1)
  else if opc = 0x04#8 then
    if upper24 d.word0 = 0#24 then .ok (.spiRegWrite d.word1 d.word2) else .error .reservedField
  else if opc = 0x05#8 then
    if upper24 d.word0 = 0#24 then .ok (.spiRegRead d.word1) else .error .reservedField
  else if opc = 0x10#8 then .ok (.accInit (byte1 d.word0) (byte2 d.word0) (byte3 d.word0))
  else if opc = 0x11#8 then
    if upperHalf d.word1 = 0#16 then
      .ok (.accWrite (byte1 d.word0) (byte2 d.word0) (byte3 d.word0) (byte0 d.word1) (byte1 d.word1))
    else .error .reservedField
  else if opc = 0x12#8 then
    if byte1 d.word1 = 0#8 then
      .ok (.accRead (byte1 d.word0) (byte2 d.word0) (byte3 d.word0) (byte0 d.word1) (upperHalf d.word1) d.word2)
    else .error .reservedField
  else if opc = 0x13#8 then
    if byte1 d.word0 = 0#8 then .ok (.csAssert (byte2 d.word0) (byte3 d.word0)) else .error .reservedField
  else if opc = 0x14#8 then
    if byte1 d.word0 = 0#8 then .ok (.csDeassert (byte2 d.word0) (byte3 d.word0)) else .error .reservedField
  else .error .unknownOpcode

/-- The header form a byte on the wire is: bit 7 read, bit 6 multi-byte, bits 5:0 the address (R110). -/
def decodeHeader (b : Byte) : Instr :=
  match b.getLsbD 7, b.getLsbD 6 with
  | false, true => .wireWriteMb (b.extractLsb' 0 6)
  | true, true => .wireReadMb (b.extractLsb' 0 6)
  | false, false => .wireWriteSb (b.extractLsb' 0 6)
  | true, false => .wireReadSb (b.extractLsb' 0 6)

/-- The header byte `R, MB, A` (R110). -/
def headerByte (r mb : Bool) (a : BitVec 6) : Byte := BitVec.ofBool r ++ (BitVec.ofBool mb ++ a)

/-- A descriptor word from its four bytes, the most significant first. -/
def wordOfBytes (b3 b2 b1 b0 : Byte) : Word := (b3 ++ b2) ++ (b1 ++ b0)

/-- A descriptor word from its upper half and its two lower bytes. -/
def wordOfHalf (h : Half) (b1 b0 : Byte) : Word := h ++ (b1 ++ b0)

/-- The words of a descriptor, or the header byte, from the same tables (R93 to R99, R110). -/
def encode : Instr → Code
  | .spiInit count table => .words [wordOfHalf count 0#8 0x01#8, table]
  | .spiTransfer ch count buf => .words [wordOfHalf count ch 0x02#8, buf]
  | .spiReceive ch count buf => .words [wordOfHalf count ch 0x03#8, buf]
  | .spiRegWrite addr value => .words [0x00000004#32, addr, value]
  | .spiRegRead addr => .words [0x00000005#32, addr]
  | .accInit ch port pin => .words [wordOfBytes pin port ch 0x10#8]
  | .accWrite ch port pin addr value => .words [wordOfBytes pin port ch 0x11#8, wordOfHalf 0#16 value addr]
  | .accRead ch port pin addr count buf => .words [wordOfBytes pin port ch 0x12#8, wordOfHalf count 0#8 addr, buf]
  | .csAssert port pin => .words [wordOfBytes pin port 0#8 0x13#8]
  | .csDeassert port pin => .words [wordOfBytes pin port 0#8 0x14#8]
  | .wireWriteMb a => .header (headerByte false true a)
  | .wireReadMb a => .header (headerByte true true a)
  | .wireWriteSb a => .header (headerByte false false a)
  | .wireReadSb a => .header (headerByte true false a)

/-- A descriptor from a list of words, taken from the front; a word that is not there reads 0. -/
def Descriptor.ofWords : List Word → Descriptor
  | [] => ⟨0#32, 0#32, 0#32⟩
  | [a] => ⟨a, 0#32, 0#32⟩
  | [a, b] => ⟨a, b, 0#32⟩
  | a :: b :: c :: _ => ⟨a, b, c⟩

/-- The instruction a code stands for. -/
def decodeCode : Code → Except Reject Instr
  | .words ws => decode (Descriptor.ofWords ws)
  | .header b => .ok (decodeHeader b)

/-- `word0` of an operation's descriptor: the value IllegalCommand records (R212). -/
def Instr.word0 (i : Instr) : Word :=
  match encode i with
  | .words ws => (Descriptor.ofWords ws).word0
  | .header b => b.toWord

/-- The operations HOST may issue (R92); the others are internal, or no command at all. -/
def Instr.issuable : Instr → Bool
  | .spiInit _ _ => true
  | .spiTransfer _ _ _ => true
  | .spiReceive _ _ _ => true
  | .spiRegWrite _ _ => true
  | .spiRegRead _ => true
  | .accInit _ _ _ => true
  | .accWrite _ _ _ _ _ => false
  | .accRead _ _ _ _ _ _ => true
  | .csAssert _ _ => false
  | .csDeassert _ _ => false
  | .wireWriteMb _ => false
  | .wireReadMb _ => false
  | .wireWriteSb _ => false
  | .wireReadSb _ => false

/-- The descriptor whose bits are `w`, `word0` in bits 31:0, `word1` in bits 63:32, `word2` in bits 95:64. -/
def descriptorOfNat (w : Nat) : Descriptor :=
  ⟨BitVec.ofNat 32 w, BitVec.ofNat 32 (w / 2 ^ 32), BitVec.ofNat 32 (w / 2 ^ 64)⟩

/-- The instruction of spec/opcode_table.json that the low `nbits` bits of `w` are. The table holds two spaces: command
descriptors, and header bytes on the wire. More than 8 bits are a descriptor. At most 8 bits may be either: a byte
that is a command's opcode is read as that command with operands of zeros, any other byte as a wire header
(DESIGN CHOICE, log 19). -/
def decodeTableWord (nbits w : Nat) : Option Instr :=
  let v := w % 2 ^ nbits
  match decode (descriptorOfNat v) with
  | .ok i => some i
  | .error _ => if nbits ≤ 8 then some (decodeHeader (BitVec.ofNat 8 v)) else none

end Sys2Proof
end

