-- ==== Sys2Proof/Machine/Types.lean ====
section
/-! DEFINITION. The parts the state is built from: a channel's registers, the reference slave, the events of the
TRACE, HOST's acts. Data only; what is done with them stands in the other files of this folder. -/

namespace Sys2Proof.Machine

/-- The four registers of a channel (R22, R61). -/
inductive Reg where
  | ctrl1
  | ctrl2
  | status
  | data
  deriving DecidableEq, Repr

/-- The four flags of STATUS (R28). -/
inductive Flag where
  | rxne
  | txe
  | ovr
  | bsy
  deriving DecidableEq, Repr

/-- The fields of CTRL1 (R23) and CTRL2 (R26) that SPI_INIT programs. -/
inductive Field where
  | phase
  | polarity
  | role
  | baud
  | enable
  | bitorder
  | iss
  | ssm
  | rxonly
  | frame
  | ssoe
  deriving DecidableEq, Repr

/-- The register set and hidden items of one channel (R20, R22, R28, R33 to R35). The four flags are the state
behind STATUS; its other bits read as 0 and hold nothing. -/
structure Channel where
  ctrl1 : Half
  ctrl2 : Half
  rxne : Bool
  txe : Bool
  ovr : Bool
  bsy : Bool
  txbuf : Half
  rxbuf : Half
  shift : Half
  shiftActive : Bool
  ovrArm : Bool
  deriving DecidableEq, Repr, Inhabited

/-- The phase of the reference slave (R199). -/
inductive SlavePhase where
  | header
  | write
  | read
  deriving DecidableEq, Repr, Inhabited

/-- The reference slave's state: `REG[0x00 .. 0x3F]`, `PTR`, `PHASE`, `MBF` (R199; the device's registers and pointer
of R43, R44). -/
structure RefSlave where
  reg : Vector Byte 64
  ptr : BitVec 6
  phase : SlavePhase
  mbf : Bool
  deriving DecidableEq, Repr, Inhabited

/-- A reference slave wired to a channel and to the chip-select line `(port, pin)` (R199). -/
structure Device where
  chan : Nat
  port : Byte
  pin : Byte
  slave : RefSlave
  deriving DecidableEq, Repr, Inhabited

/-- An event of the TRACE (R45): a pin write, `true` for high; or a completed frame, both words zero-extended from
`W(c)` to 16 bits. -/
inductive Event where
  | cs (port pin : Byte) (level : Bool)
  | frame (c : Nat) (tx rx : Half)
  deriving DecidableEq, Repr

/-- The key of ACC_STATE: a session triple (R42). -/
structure Session where
  ch : Byte
  port : Byte
  pin : Byte
  deriving DecidableEq, Repr

/-- The state of a session (R42). -/
inductive AccState where
  | uninit
  | init
  deriving DecidableEq, Repr

/-- The sequencer's run state (R37). -/
inductive SeqMode where
  | idle
  | run
  | fault
  deriving DecidableEq, Repr

/-- Who takes the next step (R6, R79). -/
inductive Turn where
  | host
  | seq
  | link (c : Nat)
  deriving DecidableEq, Repr

/-- What HOST can do to the block and to the memory it owns (R6, R90, R240, R259). A buffer or table is given whole,
under its reference, and replaces what stood there; the empty list takes it away. -/
inductive HostAct where
  | command (d : Descriptor)
  | reset
  | buffer (ref : Word) (cells : List Half)
  | table (ref : Word) (records : List CfgRecord)
  deriving DecidableEq, Repr

/-- The causes of a fault (R212). -/
inductive FaultCause where
  | channelRange
  | enumRange
  | countZero
  | bufferNull
  | portRange
  | pinRange
  | peripheralTimeout
  | illegalCommand
  deriving DecidableEq, Repr

/-- The items the spec leaves unspecified or without a value after reset (R241, R242, R244). -/
inductive Unspec where
  | txbuf (c : Nat)
  | rxbuf (c : Nat)
  | shift (c : Nat)
  | hdr (i : Nat)
  | result
  | pin (p n : Nat)
  deriving DecidableEq, Repr

/-- What a user-supplied step relation of LINK_OTHER may do in one step (R206): the channel's new data path and flags,
at most one completed frame `(tx, rx)`, and the devices' new states. -/
structure LinkEffect where
  chan : Channel
  frame : Option (Half × Half)
  devices : List Device
  deriving DecidableEq, Repr

end Sys2Proof.Machine
end

