-- ==== Sys2Proof/Config.lean ====
section
/-! DEFINITION. What an implementation fixes (00_scope.md R7), the document's literals under their names (93 U12), and
the free values: constants with no body, of which nothing can be proved but that they exist. -/

namespace Sys2Proof

/-- LINK_OTHER (R206): the link's behaviour in slave role or receive-only configuration. -/
inductive LinkOther where
  /-- No step; an SPI_TRANSFER or SPI_RECEIVE on such a channel is refused. The default. -/
  | refuse
  /-- A step relation the user supplies: `Config.linkOther`. -/
  | supplied
  deriving DecidableEq, Repr

/-- The OPEN parameters of R7. They stand in the state, where no step changes them, so that a statement over all
states holds for every value of them (PRESUMED, log 2). -/
structure Params where
  /-- `SPI_BASE(c)` for `c = 0 .. N_CH-1`; `N_CH` is the length (R7, R61). -/
  bases : List Word
  /-- `PIN_MAX(p)` for the five ports (R7). -/
  pinMax : Vector Nat 5
  /-- `WAIT_BOUND`; `none` is `inf` (R7, R131). -/
  waitBound : Option Nat
  /-- `LINK_OTHER` (R206). -/
  linkOther : LinkOther
  /-- Whether a platform memory takes the raw accesses outside the block's map (R63, U2). -/
  platform : Bool
  /-- `HDR_REF`, the reserved reference of the internal buffer (R64). -/
  hdrRef : Word
  deriving DecidableEq, Repr

/-- `N_CH` (R7). -/
def Params.nCh (p : Params) : Nat := p.bases.length

/-- `PIN_MAX(p)` (R7); 0 for a port that does not exist. -/
def Params.pinMaxOf (p : Params) (port : Nat) : Nat := (p.pinMax[port]?).getD 0

/-- Register blocks of 16 bytes that stand apart (R7, R61). -/
def basesApart : List Word → Bool
  | [] => true
  | b :: bs =>
      bs.all (fun b' => b.toNat + 16 ≤ b'.toNat || b'.toNat + 16 ≤ b.toNat) && basesApart bs

/-- What R7, R61 and R64 ask of the parameters: at least one channel and no more than 8-bit identifiers can name,
bases that are multiples of 4 with the block inside the address space and apart from one another,
`1 <= PIN_MAX(p) <= 16`, and an `HDR_REF` that is not null. -/
def Params.legal (p : Params) : Bool :=
  (1 ≤ p.nCh) && (p.nCh ≤ 256)
    && p.bases.all (fun b => b.toNat % 4 == 0 && b.toNat + 16 ≤ 2 ^ 32)
    && basesApart p.bases
    && p.pinMax.toList.all (fun n => 1 ≤ n && n ≤ 16)
    && (p.hdrRef != 0#32)

/-- The parameters of `State.reset` (PRESUMED, log 2). The two bases are those of SPI1 and SPI2 of the family whose
layout the spec follows (PRESUMED); the two channels are the test vectors' (DESIGN CHOICE); the rest are the defaults of R7 and of
92 section 2; HDR_REF is a number of the model's (DESIGN CHOICE). -/
def Params.standard : Params where
  bases := [0x40013000#32, 0x40003800#32]
  pinMax := Vector.replicate 5 16
  waitBound := none
  linkOther := .refuse
  platform := false
  hdrRef := 0xFFFFFFFF#32

/-- The number of GPIO ports: A, B, C, D, H (R7, R109). -/
abbrev Config.nPort : Nat := 5

/-- The word written to clock in one received word (R7). -/
def Config.dummy : Half := 0x0000#16

/-- The multi-byte modifier of a header byte (R7, R110). -/
def Config.mbFlag : Byte := 0x40#8

/-- The read modifier of a header byte (R7, R110). -/
def Config.rdFlag : Byte := 0x80#8

/-- The usable device address bits (R7, R110). -/
def Config.addrMask : Byte := 0x3F#8

/-- The power-control register of the device (R7, R113). -/
def Config.regPowerCtl : Byte := 0x2D#8

/-- The data-format register of the device (R7, R113). -/
def Config.regDataFormat : Byte := 0x31#8

/-- The first of the six axis bytes of the device (R7, R113). -/
def Config.regDataStart : Byte := 0x32#8

/-- The device-ID register of the device (R7, R113). -/
def Config.regDevid : Byte := 0x00#8

/-- The value ACC_INIT writes for the range of ±4g (R7, R113). -/
def Config.valRange4g : Byte := 0x01#8

/-- The value ACC_INIT writes first to power-control (R7, R113). -/
def Config.valStandby : Byte := 0x00#8

/-- The 'start measuring' bit (R7, R113). -/
def Config.valMeasure : Byte := 0x08#8

/-- FREE VALUE (log 1): which of the ready agents moves, or that none does, when the schedule does not say; the argument
counts the steps taken (R79, R198). -/
opaque Config.pick : Nat → Nat

/-- FREE VALUE (log 5): `Slave(c, history, tx)`, the word a device returns during a frame (R196). The first argument
counts HOST's resets, since a reset empties the history but not the device (R245). -/
opaque Config.slave : Nat → Nat → List Machine.Event → Half → Half

/-- FREE VALUE (log 4): what an item the spec leaves unspecified holds after the n-th HOST reset (R241, R242, R244). -/
opaque Config.resetFill : Nat → Machine.Unspec → Word

/-- FREE VALUE (log 7): what a 16-bit frame makes of a reference slave, which is defined on 8-bit frames only (R199). -/
opaque Config.wideFrame : Machine.RefSlave → Half → Machine.RefSlave

/-- FREE VALUE (log 8): the step relation a user supplies for LINK_OTHER (R206): steps taken, channel, TRACE, the
channel's registers and the devices give the step it takes, if any. -/
opaque Config.linkOther : Nat → Nat → List Machine.Event → Machine.Channel → List Machine.Device → Option Machine.LinkEffect

end Sys2Proof
end

