-- ==== Sys2Proof/Machine/State.lean ====
section
/-! DEFINITION. The state of the machine as plain data, the reasons a step can stop, and the state after reset
(10_state.md, 70_reset_and_hazards.md R240 to R246). -/

namespace Sys2Proof.Machine

/-- One frame of `SEQ.pc` (R38): the operation with its operand latches (R40), the step label, which is the
pseudocode's line and the place within a line that takes several steps, and `L_IDX`. `cfg` and `tmp` are what a line
hands to a later one: SPI_INIT's record (R133 line 2), the word the read half of a RegField read (R82), the element `e`
of SPI_TRANSFER or `d` of SPI_RECEIVE (R138, R141) (log 17, DEDUCED). -/
structure Frame where
  op : Instr
  line : Nat
  sub : Nat
  idx : Half
  cfg : CfgRecord
  tmp : Half
  deriving DecidableEq, Repr

/-- What a fault leaves of a frame: the operand latches of its operation (R40), which are the arguments of `op`, and its
loop index latch. The position, `line` and `sub`, is gone with the stack (R222; log 26, DEDUCED). -/
structure Latches where
  op : Instr
  idx : Half
  deriving DecidableEq, Repr

/-- The memory HOST owns and the platform's (R60). `buffers` is buffer space: under a reference the cells HOST gave,
in order (R64). `tables` is configuration-table space: under a reference the records (R65). `plat` is the platform
memory of U2, by byte address. Each list is in one canonical form: keys strictly rising, and no entry equal to what a
key that is not listed reads as (no cells, no records, the byte 0) (DESIGN CHOICE, log 9, 12, 13). -/
structure Memory where
  buffers : List (Nat × List Half)
  tables : List (Nat × List CfgRecord)
  plat : List Host.Cell
  deriving DecidableEq, Repr

/-- Everything the spec gives the machine (R20), with the parameters (R7), the environment the step reads, and the
model's own fields `turns`, `tick`, `epoch`, `lnk`. -/
structure State where
  /-- The OPEN parameters (R7); no step changes them. -/
  params : Params
  /-- The register sets, channel `c` at index `c` (R22). -/
  chans : List Channel
  /-- `PIN[p][n]`, `true` for high (R36). -/
  pins : Vector (Vector Bool 16) 5
  /-- `SEQ.state` (R37). -/
  mode : SeqMode
  /-- `SEQ.pc`, the top frame first (R38). -/
  pc : List Frame
  /-- The operand latches (R40) of the operations a fault stopped, the innermost first: they keep their values while the
  stack is empty (R222), until reset. While an operation runs its latches stand in its frame (log 26, DEDUCED). -/
  latches : List Latches
  /-- `HDR[0]`, `HDR[1]` (R40). -/
  hdr : Vector Half 2
  /-- `RESULT` (R41). -/
  result : Word
  /-- `FAULT_CODE` (R41). -/
  faultCode : Byte
  /-- `FAULT_INFO` (R41). -/
  faultInfo : Word
  /-- `POLLS` (R41). -/
  polls : Nat
  /-- The sessions whose `ACC_STATE` is INIT, in rising order of their keys; every other is UNINIT (R42). -/
  inits : List Session
  /-- `TRACE`, oldest first (R45). -/
  trace : List Event
  /-- The memory of HOST and of the platform (R60). -/
  mem : Memory
  /-- The reference slaves attached (R199). -/
  devices : List Device
  /-- HOST's acts to come, the next first, in one queue (R6; DESIGN CHOICE, log 28). -/
  inbox : List HostAct
  /-- Who moves next, for as long as the list says (R79; DESIGN CHOICE, log 1). -/
  turns : List Turn
  /-- Steps taken: the argument of `Config.pick` (DESIGN CHOICE, log 1). -/
  tick : Nat
  /-- HOST resets so far: an argument of `Config.slave` and `Config.resetFill` (DESIGN CHOICE, log 4, 5). -/
  epoch : Nat
  /-- The channel whose link agent moved last (DESIGN CHOICE, log 25). -/
  lnk : Nat
  deriving DecidableEq, Repr

/-- Positions of the sequencer that no run reaches. A step at one of them stops: safe, since the spec gives no such
position a meaning. No fault of the spec is here: those are the FAULT state (R222), a next state. -/
inductive Fault where
  /-- Raised by every operation and by SEQ's turn when `SEQ.state = RUN` and `SEQ.pc` is empty (R39). Safe. -/
  | emptyStack
  /-- Raised by every operation when the top frame's label is no line of it (R38). Safe. -/
  | noSuchLine
  /-- Raised by a line that reaches a channel at or above `N_CH`, which the line's assertion has excluded (R62). Safe. -/
  | noSuchChannel
  deriving DecidableEq, Repr

/-- The cases to which the spec gives no effect and which it says a model refuses (93 section 1). -/
inductive Refusal where
  /-- Raised by an arm of `exec` whose instruction has no meaning yet. Safe. -/
  | notModelled (mnemonic : String)
  /-- Raised by SPI_REGWRITE and SPI_REGREAD: an address outside the block's map, with no platform memory (R63, U2).
  Safe. -/
  | outsideMap
  /-- Raised by SPI_REGWRITE and SPI_REGREAD: an address that is no multiple of 4 (R75, U2). Safe. -/
  | misaligned
  /-- Raised by ACC_WRITE and ACC_READ at line 1: a device address above 0x3F (R161, U3). Safe. -/
  | addrTooLarge
  /-- Raised by SPI_TRANSFER and SPI_RECEIVE: a cell beyond the capacity HOST gave (R64, U4). Safe. -/
  | beyondCapacity
  /-- Raised by SPI_INIT: a record beyond those HOST gave (R65, R136). Safe. -/
  | beyondTable
  /-- Raised by SPI_RECEIVE and SPI_REGWRITE, and by SPI_TRANSFER in states no run reaches: a write of DATA while
  TXE = 0 (R66, U5). Safe. -/
  | dataWriteFull
  /-- Raised by SPI_INIT: a null table with records to read (R136, U6). Safe. -/
  | nullTable
  /-- Raised by SPI_TRANSFER and SPI_RECEIVE on an enabled channel in slave role or receive-only configuration, under
  `LINK_OTHER = refuse` (R206, U13). Safe. -/
  | linkOther
  deriving DecidableEq, Repr

/-- A channel after reset (R241); the unspecified words are given by `fill`. -/
def Channel.atReset (fill : Unspec → Word) (c : Nat) : Channel where
  ctrl1 := 0x0000#16
  ctrl2 := 0x0000#16
  rxne := false
  txe := true
  ovr := false
  bsy := false
  txbuf := (fill (.txbuf c)).lowHalf
  rxbuf := (fill (.rxbuf c)).lowHalf
  shift := (fill (.shift c)).lowHalf
  shiftActive := false
  ovrArm := false

/-- The block after reset (R240 to R246), for parameters `p`, with the items the spec leaves unspecified given by
`fill`; nothing in the memories, no device attached, no act of HOST to come. -/
def State.resetWith (p : Params) (fill : Unspec → Word) : State where
  params := p
  chans := (List.range p.nCh).map (Channel.atReset fill)
  pins := Vector.ofFn fun i => Vector.ofFn fun j => (fill (.pin i.val j.val)).getLsbD 0
  mode := .idle
  pc := []
  latches := []
  hdr := Vector.ofFn fun i => (fill (.hdr i.val)).lowHalf
  result := fill .result
  faultCode := 0x00#8
  faultInfo := 0x00000000#32
  polls := 0
  inits := []
  trace := []
  mem := ⟨[], [], []⟩
  devices := []
  inbox := []
  turns := []
  tick := 0
  epoch := 0
  lnk := 0

/-- The machine right after reset (R240 to R246): the standard parameters (PRESUMED, log 2), and 0 in every item the spec
leaves unspecified (log 3, DESIGN CHOICE). -/
def State.reset : State := State.resetWith Params.standard (fun _ => 0#32)

end Sys2Proof.Machine
end

