-- ==== Sys2Proof/Machine/Flags.lean ====
section
/-! DEFINITION. One channel's registers: the control fields (R23, R26), the status word (R28), the side effects of
register accesses (R66 to R71), and the flags of the two link steps (R191 to R195). -/

namespace Sys2Proof.Machine

/-- The register a control field stands in (R23, R26). -/
def Field.reg : Field → Reg
  | .phase => .ctrl1
  | .polarity => .ctrl1
  | .role => .ctrl1
  | .baud => .ctrl1
  | .enable => .ctrl1
  | .bitorder => .ctrl1
  | .iss => .ctrl1
  | .ssm => .ctrl1
  | .rxonly => .ctrl1
  | .frame => .ctrl1
  | .ssoe => .ctrl2

/-- The lowest bit of a control field (R23, R26). -/
def Field.lo : Field → Nat
  | .phase => 0
  | .polarity => 1
  | .role => 2
  | .baud => 3
  | .enable => 6
  | .bitorder => 7
  | .iss => 8
  | .ssm => 9
  | .rxonly => 10
  | .frame => 11
  | .ssoe => 2

/-- The bits of a control field in place (R23, R26). -/
def Field.mask (f : Field) : Half :=
  match f with
  | .baud => 0x7#16 <<< f.lo
  | _ => 0x1#16 <<< f.lo

/-- What RegField writes: `(old & ~mask(F)) | (v << lo(F))` (R9). -/
def Field.insert (f : Field) (old v : Half) : Half := (old &&& ~~~f.mask) ||| (v <<< f.lo)

/-- `CTRL1.ENABLE` (R23). -/
def Channel.enable (ch : Channel) : Bool := ch.ctrl1.getLsbD 6

/-- `CTRL1.ROLE`, `true` for master (R23). -/
def Channel.role (ch : Channel) : Bool := ch.ctrl1.getLsbD 2

/-- `CTRL1.RXONLY`, `true` for receive-only (R23). -/
def Channel.rxonly (ch : Channel) : Bool := ch.ctrl1.getLsbD 10

/-- `CTRL1.FRAME`, `true` for 16-bit frames (R23). -/
def Channel.wide (ch : Channel) : Bool := ch.ctrl1.getLsbD 11

/-- `W(c)` (R7). -/
def Channel.width (ch : Channel) : Nat := if ch.wide then 16 else 8

/-- `2^W(c) - 1` (R193). -/
def Channel.mask (ch : Channel) : Half := if ch.wide then 0xFFFF#16 else 0x00FF#16

/-- The status word `{0[15:8], BSY, OVR, 0[5:2], TXE, RXNE}` (R68). -/
def Channel.statusWord (ch : Channel) : Half :=
  0x00#8 ++ (BitVec.ofBool ch.bsy ++ (BitVec.ofBool ch.ovr ++ (0x0#4 ++ (BitVec.ofBool ch.txe ++ BitVec.ofBool ch.rxne))))

/-- One flag as it stands (R28). -/
def Channel.flag (ch : Channel) : Flag → Bool
  | .rxne => ch.rxne
  | .txe => ch.txe
  | .ovr => ch.ovr
  | .bsy => ch.bsy

/-- The side effect of a read of STATUS: it clears OVR if a read of DATA has armed that (R68). -/
def Channel.afterStatusRead (ch : Channel) : Channel :=
  if ch.ovrArm then { ch with ovr := false, ovrArm := false } else ch

/-- The side effect of a read of DATA: RXNE is cleared, and OVR clearing is armed if OVR = 1; RXBUF is kept (R67). -/
def Channel.afterDataRead (ch : Channel) : Channel :=
  { ch with rxne := false, ovrArm := ch.ovrArm || ch.ovr }

/-- A write of DATA (R66). -/
def Channel.afterDataWrite (ch : Channel) (v : Half) : Channel :=
  { ch with txbuf := v, txe := false }

/-- The value a register read returns (R67, R68, R70, R71). -/
def Channel.readValue (ch : Channel) : Reg → Half
  | .ctrl1 => ch.ctrl1
  | .ctrl2 => ch.ctrl2
  | .status => ch.statusWord
  | .data => ch.rxbuf

/-- The side effect of a register read (R67, R68, R70, R71). -/
def Channel.afterRead (ch : Channel) : Reg → Channel
  | .ctrl1 => ch
  | .ctrl2 => ch
  | .status => ch.afterStatusRead
  | .data => ch.afterDataRead

/-- A register write (R66, R69 to R71); `none` for the one write that is refused, of DATA while TXE = 0 (R66, U5). -/
def Channel.afterWrite (ch : Channel) (r : Reg) (v : Half) : Option Channel :=
  match r with
  | .ctrl1 => some { ch with ctrl1 := v }
  | .ctrl2 => some { ch with ctrl2 := v }
  | .status => some ch
  | .data => if ch.txe then some (ch.afterDataWrite v) else none

/-- The configuration in which LINK has the steps of R192 and R193: enabled, master, full-duplex (R191). -/
def Channel.linkOn (ch : Channel) : Bool := ch.enable && ch.role && !ch.rxonly

/-- The configurations R206 leaves open: enabled, and slave or receive-only. -/
def Channel.linkOpen (ch : Channel) : Bool := ch.enable && !(ch.role && !ch.rxonly)

/-- LINK_START is enabled (R192). -/
def Channel.startEnabled (ch : Channel) : Bool := ch.linkOn && !ch.txe && !ch.shiftActive

/-- LINK_COMPLETE is enabled (R193). -/
def Channel.completeEnabled (ch : Channel) : Bool := ch.linkOn && ch.shiftActive

/-- LINK_START (R192). -/
def Channel.started (ch : Channel) : Channel :=
  { ch with shift := ch.txbuf, shiftActive := true, txe := true, bsy := true }

/-- LINK_COMPLETE's effect on the channel, `rx` being the received word already masked (R193): RXBUF and RXNE if RXNE
was 0, else OVR; the shifter is free; BSY falls if nothing waits. -/
def Channel.completed (ch : Channel) (rx : Half) : Channel :=
  { ch with
    rxbuf := if ch.rxne then ch.rxbuf else rx
    rxne := true
    ovr := ch.ovr || ch.rxne
    shiftActive := false
    bsy := ch.bsy && !ch.txe }

end Sys2Proof.Machine
end

