-- ==== Sys2Proof/Machine/Ops.lean ====
section
/-! DEFINITION. The shared operations of the machine: registers, pins, the memories, the sequencer's position, taking a
fault and reset (R9, R36 to R42, R60 to R65, R222, R240). -/

namespace Sys2Proof.Machine

/-- The outcome of one step of this machine. -/
abbrev Result := Host.Outcome State Fault Refusal

/-! Channels -/

/-- Channel `c` put back. -/
def State.setChan (s : State) (c : Nat) (ch : Channel) : State := { s with chans := s.chans.set c ch }

/-! Lists by key in canonical form -/

/-- The value a canonical list holds under a key; `dflt` if the key is not listed. -/
def keyRead {β : Type} (dflt : β) (k : Nat) : List (Nat × β) → β
  | [] => dflt
  | (a, b) :: t => if a = k then b else keyRead dflt k t

/-- The list without a key. -/
def keyDrop {β : Type} (k : Nat) : List (Nat × β) → List (Nat × β)
  | [] => []
  | (a, b) :: t => if a = k then t else (a, b) :: keyDrop k t

/-- The list with a value put under a key, in its place of the rising order. -/
def keyPut {β : Type} (k : Nat) (v : β) : List (Nat × β) → List (Nat × β)
  | [] => [(k, v)]
  | (a, b) :: t => if k < a then (k, v) :: (a, b) :: t else if a = k then (k, v) :: t else (a, b) :: keyPut k v t

/-- A write that keeps the canonical form: the value an unlisted key reads as is not listed. -/
def keyWrite {β : Type} [DecidableEq β] (dflt : β) (k : Nat) (v : β) (l : List (Nat × β)) : List (Nat × β) :=
  if v = dflt then keyDrop k l else keyPut k v l

/-- Keys strictly rising. -/
def keysRise {β : Type} : List (Nat × β) → Bool
  | [] => true
  | (a, _) :: t => t.all (fun e => a < e.1) && keysRise t

/-- The canonical form of a list by key. -/
def keyCanonical {β : Type} [DecidableEq β] (dflt : β) (l : List (Nat × β)) : Bool :=
  keysRise l && l.all (fun e => decide (e.2 ≠ dflt))

/-- The canonical form of the memory: what an unlisted reference of buffer space or table space holds is no cell and no
record, what an unlisted byte of the platform memory reads as is 0 (DESIGN CHOICE, log 9, 12, 13). -/
def Memory.wf (m : Memory) : Bool :=
  keyCanonical [] m.buffers && keyCanonical [] m.tables && keyCanonical 0x00#8 m.plat

/-- The cells HOST gave under a reference (R64). -/
def Memory.cells (m : Memory) (ref : Word) : List Half := keyRead [] ref.toNat m.buffers

/-- The records HOST gave under a reference (R65). -/
def Memory.records (m : Memory) (ref : Word) : List CfgRecord := keyRead [] ref.toNat m.tables

/-- HOST gives, replaces or takes away a buffer (R259). -/
def Memory.putCells (m : Memory) (ref : Word) (cells : List Half) : Memory :=
  { m with buffers := keyWrite [] ref.toNat cells m.buffers }

/-- HOST gives, replaces or takes away a table (R259). -/
def Memory.putRecords (m : Memory) (ref : Word) (records : List CfgRecord) : Memory :=
  { m with tables := keyWrite [] ref.toNat records m.tables }

/-- One byte of the platform memory (U2). -/
def Memory.byte (m : Memory) (a : Nat) : Byte := keyRead 0x00#8 a m.plat

/-- One byte of the platform memory written (U2). -/
def Memory.putByte (m : Memory) (a : Nat) (v : Byte) : Memory := { m with plat := keyWrite 0x00#8 a v m.plat }

/-- A 32-bit word of the platform memory, the least significant byte at the lowest address (log 9, DESIGN CHOICE). -/
def Memory.word (m : Memory) (a : Nat) : Word :=
  (m.byte (a + 3) ++ m.byte (a + 2)) ++ (m.byte (a + 1) ++ m.byte a)

/-- A 32-bit word of the platform memory written, in the same byte order. -/
def Memory.putWord (m : Memory) (a : Nat) (v : Word) : Memory :=
  (((m.putByte a (v.extractLsb' 0 8)).putByte (a + 1) (v.extractLsb' 8 8)).putByte (a + 2)
    (v.extractLsb' 16 8)).putByte (a + 3) (v.extractLsb' 24 8)

/-! Sessions -/

/-- The order of sessions in `State.inits`. -/
def Session.key (x : Session) : Nat := x.ch.toNat * 65536 + x.port.toNat * 256 + x.pin.toNat

/-- The sessions with one more, in its place and once. -/
def insertSession (x : Session) : List Session → List Session
  | [] => [x]
  | y :: t => if x.key < y.key then x :: y :: t else if y = x then y :: t else y :: insertSession x t

/-- Sessions strictly rising. -/
def sessionsRise : List Session → Bool
  | [] => true
  | x :: t => t.all (fun y => x.key < y.key) && sessionsRise t

/-- `ACC_STATE[s]` (R42). -/
def State.accState (s : State) (x : Session) : AccState := if x ∈ s.inits then .init else .uninit

/-- `ACC_STATE[s] <- INIT` (R168 line 4). -/
def State.setInit (s : State) (x : Session) : State := { s with inits := insertSession x s.inits }

/-! Pins -/

/-- `PIN[p][n]`, `true` for high (R36); `false` outside the ports and pins there are. -/
def State.pin (s : State) (p n : Nat) : Bool := ((s.pins[p]?).bind (·[n]?)).getD false

/-- The latches with one pin set. -/
def setPinLatch (pins : Vector (Vector Bool 16) 5) (p n : Nat) (level : Bool) : Vector (Vector Bool 16) 5 :=
  match pins[p]? with
  | some row => pins.setIfInBounds p (row.setIfInBounds n level)
  | none => pins

/-- A device hears `CS(p, n, 0)` on its own line: its next frame is a header (R199). -/
def Device.hearPin (d : Device) (port pin : Byte) (level : Bool) : Device :=
  if d.port = port ∧ d.pin = pin ∧ level = false then { d with slave := { d.slave with phase := .header } } else d

/-- `PinWrite(p, n, level)`: the latch, the `CS` event, and what the devices on that line hear; nothing else, and the
event also when the level does not change (R162, R199). -/
def State.pinWrite (s : State) (port pin : Byte) (level : Bool) : State :=
  { s with
    pins := setPinLatch s.pins port.toNat pin.toNat level
    trace := s.trace ++ [.cs port pin level]
    devices := s.devices.map (fun d => d.hearPin port pin level) }

/-! The sequencer's position -/

/-- The frame an operation starts with: its first line (R39). The spec gives `L_IDX` no value before the operation's `for`
line runs, and none at all in an operation without a loop: the model loads 0 (DESIGN CHOICE, log 27), and likewise
starts `cfg` and `tmp`, which no line reads before an earlier one has written them. -/
def Frame.start (i : Instr) : Frame where
  op := i
  line := 1
  sub := 0
  idx := 0#16
  cfg := ⟨0#8, 0#8, 0#8, 0#8, 0#8, 0#8, 0#8, 0#8⟩
  tmp := 0#16

/-- The frame at the beginning of another line. -/
def Frame.goto (f : Frame) (n : Nat) : Frame := { f with line := n, sub := 0 }

/-- The frame at the next line (R39). -/
def Frame.next (f : Frame) : Frame := f.goto (f.line + 1)

/-- The end of a loop's body: back to its first line with `L_IDX + 1` while that is below `L_COUNT`, else to the line
after the loop (R39). -/
def Frame.loop (f : Frame) (count : Half) (first after : Nat) : Frame :=
  if f.idx.toNat + 1 < count.toNat then { f.goto first with idx := f.idx + 1#16 } else f.goto after

/-- The top frame put back, changed. -/
def State.setTop (s : State) (f : Frame) : State :=
  { s with pc := f :: s.pc.tail }

/-- Accepting a command (R39, R90): the frame of the operation, and RUN. -/
def State.accept (s : State) (i : Instr) : State := { s with mode := .run, pc := Frame.start i :: s.pc }

/-- `call OP(args)`: the callee's frame on top, the caller staying at the calling line (R39, R160). -/
def State.call (s : State) (i : Instr) : State := { s with pc := Frame.start i :: s.pc }

/-- `return`: the frame is popped and the caller goes on with its next line; when the bottom frame returns the stack is
empty and the sequencer idle (R39, R160). -/
def State.ret (s : State) : State :=
  match s.pc with
  | _ :: caller :: rest => { s with pc := caller.next :: rest }
  | _ => { s with pc := [], mode := .idle }

/-! Taking a fault -/

/-- The operand latches of a frame (R40). -/
def Frame.latches (f : Frame) : Latches := ⟨f.op, f.idx⟩

/-- The operand latches that hold a value, the innermost operation's first (R40): those of the frames, then those a
fault left. -/
def State.latched (s : State) : List Latches := s.pc.map Frame.latches ++ s.latches

/-- The codes of R212. -/
def FaultCause.code : FaultCause → Byte
  | .channelRange => 1#8
  | .enumRange => 2#8
  | .countZero => 3#8
  | .bufferNull => 4#8
  | .portRange => 5#8
  | .pinRange => 6#8
  | .peripheralTimeout => 7#8
  | .illegalCommand => 8#8

/-- `raise X(info)`: FAULT_CODE, FAULT_INFO, an empty stack and the FAULT state; nothing else changes, and the operand
latches keep their values (R222). There is no return from it but reset (R224). -/
def State.raise (s : State) (x : FaultCause) (info : Word) : State :=
  { s with faultCode := x.code, faultInfo := info, pc := [], latches := s.latched, mode := .fault }

/-- `assert(cond, Code, info)` as one step: on to the next line, or the fault (R211). -/
def assertLine (cond : Bool) (x : FaultCause) (info : Word) (f : Frame) (s : State) : Result :=
  if cond then .next (s.setTop f.next) else .next (s.raise x info)

/-- HOST's reset (R240 to R246): every item of the block at its reset value, the unspecified ones free (DESIGN CHOICE, log 4). What
is not the block's is kept: the parameters, HOST's memory, the devices (R245), HOST's further acts, the schedule. -/
def State.hostReset (s : State) : State :=
  { State.resetWith s.params (Config.resetFill (s.epoch + 1)) with
    mem := s.mem
    devices := s.devices
    inbox := s.inbox
    turns := s.turns
    tick := s.tick
    epoch := s.epoch + 1
    lnk := s.lnk }

/-! Running a line of an operation -/

/-- One step of operation `op`. In IDLE the command port takes it, if HOST may issue it; an internal operation raises
IllegalCommand with its `word0` (R90, R114, R219). In FAULT nothing is accepted and nothing moves (R224). In RUN the line
at which the top frame stands takes its step. -/
def operation (op : Instr) (line : Frame → State → Result) (s : State) : Result :=
  match s.mode with
  | .idle => if op.issuable then .next (s.accept op) else .next (s.raise .illegalCommand op.word0)
  | .fault => .next s
  | .run =>
    match s.pc with
    | [] => .fault .emptyStack
    | f :: _ => line f s

end Sys2Proof.Machine
end

