-- ==== Sys2Proof/Machine/Operands.lean ====
section
/-! DEFINITION. The operand forms: a register reached by channel identifier or by raw address, a buffer cell, a
configuration record, a polled flag, a header byte (R62 to R65, R111, R131). -/

namespace Sys2Proof.Machine

/-- A channel, port or pin identifier is in range (R7, R213, R218). -/
def State.channelOk (s : State) (ch : Byte) : Bool := ch.toNat < s.params.nCh

/-- `PORT < N_PORT` (R218). -/
def portOk (port : Byte) : Bool := port.toNat < Config.nPort

/-- `PIN < PIN_MAX(PORT)` (R218). -/
def State.pinOk (s : State) (port pin : Byte) : Bool := pin.toNat < s.params.pinMaxOf port.toNat

/-- `RegRead(c, r)` as one step; `k` is given the value and the state after the read's side effect (R9). -/
def regRead (c : Nat) (r : Reg) (s : State) (k : Half → State → Result) : Result :=
  match s.chans[c]? with
  | none => .fault .noSuchChannel
  | some ch => k (ch.readValue r) (s.setChan c (ch.afterRead r))

/-- `RegWrite(c, r, v)` as one step; a write of DATA while TXE = 0 is refused (R9, R66, U5). -/
def regWrite (c : Nat) (r : Reg) (v : Half) (s : State) (k : State → Result) : Result :=
  match s.chans[c]? with
  | none => .fault .noSuchChannel
  | some ch =>
    match ch.afterWrite r v with
    | none => .refused .dataWriteFull
    | some ch' => k (s.setChan c ch')

/-- One poll of `wait_until(c, FLAG = v)` (R131): a read of STATUS with its side effect. If the flag as it stood has the
value, POLLS restarts and the position moves on. If not, the position stays; with a finite WAIT_BOUND the poll is
counted, and the one that reaches the bound raises PeripheralTimeout with none of its other effects (R217, R222); with
`inf` nothing is counted (DEDUCED, log 14). -/
def waitUntil (c : Nat) (fl : Flag) (v : Bool) (f : Frame) (s : State) : Result :=
  match s.chans[c]? with
  | none => .fault .noSuchChannel
  | some ch =>
    let s' := s.setChan c ch.afterStatusRead
    if ch.flag fl = v then .next { s'.setTop f.next with polls := 0 }
    else
      match s.params.waitBound with
      | none => .next s'
      | some bound =>
        if bound ≤ s.polls + 1 then .next (s.raise .peripheralTimeout (BitVec.ofNat 32 c))
        else .next { s' with polls := s.polls + 1 }

/-- `BufRead(ref, i)` (R64): HDR_REF is the internal buffer, any other reference HOST's; `none` beyond the capacity. -/
def State.bufRead (s : State) (ref : Word) (i : Nat) : Option Half :=
  if ref = s.params.hdrRef then s.hdr[i]? else (s.mem.cells ref)[i]?

/-- `BufWrite(ref, i, v)` (R64); `none` beyond the capacity. -/
def State.bufWrite (s : State) (ref : Word) (i : Nat) (v : Half) : Option State :=
  if ref = s.params.hdrRef then
    if i < 2 then some { s with hdr := s.hdr.setIfInBounds i v } else none
  else if i < (s.mem.cells ref).length then
    some { s with mem := s.mem.putCells ref ((s.mem.cells ref).set i v) }
  else none

/-- `CfgRead(table, i)` (R65); `none` beyond the records HOST gave. -/
def State.cfgRead (s : State) (ref : Word) (i : Nat) : Option CfgRecord := (s.mem.records ref)[i]?

/-- The register at an offset from the base of a block (R61). -/
def regAt (base a : Word) : Option Reg :=
  if a = base then some .ctrl1
  else if a = base + 0x04#32 then some .ctrl2
  else if a = base + 0x08#32 then some .status
  else if a = base + 0x0C#32 then some .data
  else none

/-- The first channel, counted from `c`, whose block holds the address (R61, R63). -/
def locateFrom (a : Word) : Nat → List Word → Option (Nat × Reg)
  | _, [] => none
  | c, b :: bs =>
    match regAt b a with
    | some r => some (c, r)
    | none => locateFrom a (c + 1) bs

/-- The register at a raw address, `SPI_BASE(c) + off` (R63). -/
def locate (p : Params) (a : Word) : Option (Nat × Reg) := locateFrom a 0 p.bases

/-- A raw access address is a multiple of 4 (R75). -/
def rawAligned (a : Word) : Bool := a.toNat % 4 == 0

/-- A device register address lies within the usable address bits, `ADDR <= 0x3F` (R111, R161). -/
def deviceAddressOk (a : Byte) : Bool := a ≤ Config.addrMask

/-- `MemRead(addr, 4)` as one step (R63, R75, U2): a misaligned address is refused; a register of the block is read
with its side effect and zero-extended; any other address is the platform memory's, or refused. -/
def memRead (a : Word) (s : State) (k : Word → State → Result) : Result :=
  if rawAligned a then
    match locate s.params a with
    | some (c, r) => regRead c r s (fun v s' => k v.toWord s')
    | none => if s.params.platform then k (s.mem.word a.toNat) s else .refused .outsideMap
  else .refused .misaligned

/-- `MemWrite(addr, 4, v)` as one step (R63, R75, U2); a register keeps the low 16 bits (R61). -/
def memWrite (a v : Word) (s : State) (k : State → Result) : Result :=
  if rawAligned a then
    match locate s.params a with
    | some (c, r) => regWrite c r v.lowHalf s k
    | none =>
      if s.params.platform then k { s with mem := s.mem.putWord a.toNat v } else .refused .outsideMap
  else .refused .misaligned

/-- The header of a write, `address | 0x40`, with no mask (R111, R165). -/
def writeHeader (addr : Byte) : Byte := addr ||| Config.mbFlag

/-- The header of a read, `address | 0x80 | 0x40`, with no mask (R111, R171). -/
def readHeader (addr : Byte) : Byte := (addr ||| Config.rdFlag) ||| Config.mbFlag

/-- `HDR[i] <- v` (R165, R171). -/
def State.setHdr (s : State) (i : Nat) (v : Half) : State := { s with hdr := s.hdr.setIfInBounds i v }

end Sys2Proof.Machine
end

