-- ==== Sys2Proof/Machine/Acc.lean ====
section
/-! DEFINITION. The chip-select micro-operations and the accelerometer operations, line by line as in the pseudocode of
41_accel_ops.md; and the scale conversion, which is outside the block (R178). -/

namespace Sys2Proof.Machine

/-- The pseudocode common to CS_ASSERT and CS_DEASSERT (R162, R163), but for the level. -/
def chipSelect (level : Bool) (port pin : Byte) (f : Frame) (s : State) : Result :=
  match f.line with
  | 1 => assertLine (portOk port) .portRange port.toWord f s
  | 2 => assertLine (s.pinOk port pin) .pinRange pin.toWord f s
  | 3 => .next ((s.pinWrite port pin level).setTop f.next)
  | 4 => .next s.ret
  | _ => .fault .noSuchLine

/-- CS_ASSERT (R162): the pin is driven low. -/
def execCsAssert (port pin : Byte) (s : State) : Result :=
  operation (.csAssert port pin) (chipSelect false port pin) s

/-- CS_DEASSERT (R163): the pin is driven high. -/
def execCsDeassert (port pin : Byte) (s : State) : Result :=
  operation (.csDeassert port pin) (chipSelect true port pin) s

/-- Line 1 of ACC_WRITE and ACC_READ: the header goes to `HDR[0]` (R165, R171); an address above 0x3F is refused (R161,
U3; DEDUCED, log 11). -/
def headerLine (addr hdr : Byte) (f : Frame) (s : State) : Result :=
  if deviceAddressOk addr then .next ((s.setHdr 0 hdr.toHalf).setTop f.next) else .refused .addrTooLarge

/-- ACC_WRITE (R164 to R166). -/
def execAccWrite (ch port pin addr value : Byte) (s : State) : Result :=
  operation (.accWrite ch port pin addr value) (fun f s =>
    match f.line with
    | 1 => headerLine addr (writeHeader addr) f s
    | 2 => .next ((s.setHdr 1 value.toHalf).setTop f.next)
    | 3 => .next (s.call (.csAssert port pin))
    | 4 => .next (s.call (.spiTransfer ch 2#16 s.params.hdrRef))
    | 5 => .next (s.call (.csDeassert port pin))
    | 6 => .next s.ret
    | _ => .fault .noSuchLine) s

/-- ACC_INIT (R167 to R169): three writes in fixed order, then ACC_STATE. -/
def execAccInit (ch port pin : Byte) (s : State) : Result :=
  operation (.accInit ch port pin) (fun f s =>
    match f.line with
    | 1 => .next (s.call (.accWrite ch port pin Config.regDataFormat Config.valRange4g))
    | 2 => .next (s.call (.accWrite ch port pin Config.regPowerCtl Config.valStandby))
    | 3 => .next (s.call (.accWrite ch port pin Config.regPowerCtl Config.valMeasure))
    | 4 => .next ((s.setInit ⟨ch, port, pin⟩).setTop f.next)
    | 5 => .next s.ret
    | _ => .fault .noSuchLine) s

/-- ACC_READ (R170 to R173). -/
def execAccRead (ch port pin addr : Byte) (count : Half) (buf : Word) (s : State) : Result :=
  operation (.accRead ch port pin addr count buf) (fun f s =>
    match f.line with
    | 1 => headerLine addr (readHeader addr) f s
    | 2 => .next (s.call (.csAssert port pin))
    | 3 => .next (s.call (.spiTransfer ch 1#16 s.params.hdrRef))
    | 4 => .next (s.call (.spiReceive ch count buf))
    | 5 => .next (s.call (.csDeassert port pin))
    | 6 => .next s.ret
    | _ => .fault .noSuchLine) s

/-- The raw axis value of a low and a high cell of a burst read, a signed integer (R74, R178; informative). -/
def axisRaw (lo hi : Half) : Int := (hi.lowByte ++ lo.lowByte : BitVec 16).toInt

/-- The acceleration in ten-thousandths of a g at the ±4g setting: the raw value times 78, that is times 0.0078
(R178; informative, exact decimals by D31). -/
def axisTenThousandthsG (raw : Int) : Int := raw * 78

end Sys2Proof.Machine
end

