-- ==== Sys2Proof/Machine/Link.lean ====
section
/-! DEFINITION. The completion of a frame: the slave's answer and the reference slave (42_link_events.md R193, R196,
R199 to R201), and the four wire header forms as the frames that carry them (R110, R112, R115). -/

namespace Sys2Proof.Machine

/-- The device is on the channel and its chip-select line is low (R196, R199). -/
def State.selected (s : State) (c : Nat) (d : Device) : Bool :=
  d.chan == c && !(s.pin d.port.toNat d.pin.toNat)

/-- The devices that take part in a frame on channel `c` (R196). -/
def State.listeners (s : State) (c : Nat) : List Device := s.devices.filter (s.selected c)

/-- The register pointer after a data frame: advanced if MBF is set, within six bits (R200, R201). -/
def RefSlave.advanced (r : RefSlave) : RefSlave := { r with ptr := if r.mbf then r.ptr + 1#6 else r.ptr }

/-- What an 8-bit frame makes of a selected reference slave: a header sets PTR, MBF and PHASE (R199), a write frame the
register at PTR but 0x00 (R200), a read frame only the pointer (R201). -/
def RefSlave.frame8 (r : RefSlave) (tx : Byte) : RefSlave :=
  match r.phase with
  | .header =>
    { r with
      ptr := tx.extractLsb' 0 6
      mbf := tx.getLsbD 6
      phase := if tx.getLsbD 7 then .read else .write }
  | .write =>
    RefSlave.advanced
      (if r.ptr = 0#6 then r else { r with reg := r.reg.setIfInBounds r.ptr.toNat tx })
  | .read => r.advanced

/-- What a frame on channel `c` makes of a device: nothing if it is not selected (R199); on a 16-bit frame a free value
(DESIGN CHOICE, log 7). -/
def Device.hearFrame (s : State) (c : Nat) (wide : Bool) (tx : Half) (d : Device) : Device :=
  if s.selected c d then
    { d with slave := if wide then Config.wideFrame d.slave tx else d.slave.frame8 tx.lowByte }
  else d

/-- The word the slave returns (R196): the register at PTR if exactly one device is selected, in its read phase, on an
8-bit channel (R201); in every other case a free value (R196, R199, R200, U11). -/
def State.slaveAnswer (s : State) (c : Nat) (wide : Bool) (tx : Half) : Half :=
  match s.listeners c, wide with
  | [d], false =>
    match d.slave.phase with
    | .read => ((d.slave.reg[d.slave.ptr.toNat]?).getD 0#8).toHalf
    | .header => Config.slave s.epoch c s.trace tx
    | .write => Config.slave s.epoch c s.trace tx
  | _, _ => Config.slave s.epoch c s.trace tx

/-- LINK_COMPLETE of a frame on channel `c`, whose registers are `ch`, with the sent word `tx` (R193): the answer, the
FRAME event, the channel's flags and buffer, and what the devices make of the frame. -/
def State.completeFrame (s : State) (c : Nat) (ch : Channel) (tx : Half) : State :=
  let rx := s.slaveAnswer c ch.wide tx &&& ch.mask
  { s.setChan c (ch.completed rx) with
    trace := s.trace ++ [.frame c tx rx]
    devices := s.devices.map (Device.hearFrame s c ch.wide tx)
    lnk := c }

/-- A header byte on the wire: the completion of the 8-bit frame that carries it, on the channel whose link agent moves
(R110, R193, R199; DESIGN CHOICE, log 25). Where no frame is in flight there the link agent has no step, and
nothing happens. -/
def headerFrame (b : Byte) (s : State) : Result :=
  match s.chans[s.lnk]? with
  | none => .next s
  | some ch => if ch.completeEnabled && !ch.wide then .next (s.completeFrame s.lnk ch b.toHalf) else .next s

/-- WIRE_WRITE_MB: the header `01aaaaaa`, a multi-byte write (R110, R112). -/
def execWireWriteMb (a : BitVec 6) (s : State) : Result := headerFrame (headerByte false true a) s

/-- WIRE_READ_MB: the header `11aaaaaa`, a multi-byte read (R110, R112). -/
def execWireReadMb (a : BitVec 6) (s : State) : Result := headerFrame (headerByte true true a) s

/-- WIRE_WRITE_SB: the header `00aaaaaa`, a single-byte write, only ever sent by a raw SPI_TRANSFER (R110, R115). -/
def execWireWriteSb (a : BitVec 6) (s : State) : Result := headerFrame (headerByte false false a) s

/-- WIRE_READ_SB: the header `10aaaaaa`, a single-byte read, only ever sent by a raw SPI_TRANSFER (R110, R115). -/
def execWireReadSb (a : BitVec 6) (s : State) : Result := headerFrame (headerByte true false a) s

end Sys2Proof.Machine
end

