-- ==== Sys2Proof/Machine/Spi.lean ====
section
/-! DEFINITION. The five SPI operations, line by line as in the pseudocode of 40_spi_ops.md. A line's number is the
pseudocode's; each line is one step, a RegField two (R9, R82, R130; DEDUCED, log 15). -/

namespace Sys2Proof.Machine

/-- The enumerant a line of SPI_INIT decodes, and `0` at a line that decodes none (R133). -/
def initCode (line : Nat) (cfg : CfgRecord) : Byte :=
  match line with
  | 5 => cfg.mode
  | 6 => cfg.role
  | 7 => cfg.baud
  | 8 => cfg.ss
  | 9 => cfg.order
  | 10 => cfg.xfer
  | 11 => cfg.size
  | _ => 0#8

/-- The slave-select line of SPI_INIT (R105, R133 line 8). -/
def ssFields (ss : Byte) : Option (List (Field × Half)) :=
  if ss = 0#8 then some [(.ssm, 1#16), (.iss, 1#16)]
  else if ss = 1#8 then some [(.ssoe, 1#16)]
  else if ss = 2#8 then some [(.ssoe, 0#16)]
  else none

/-- The fields lines 5 to 12 of SPI_INIT program, in their order, with the values; `none` for a code outside the legal
set (R100 to R108, R133). -/
def initFields (line : Nat) (cfg : CfgRecord) : Option (List (Field × Half)) :=
  match line with
  | 5 =>
    if cfg.mode.toNat < 4 then
      some [(.polarity, bitHalf (cfg.mode.getLsbD 1)), (.phase, bitHalf (cfg.mode.getLsbD 0))]
    else none
  | 6 => if cfg.role.toNat < 2 then some [(.role, cfg.role.toHalf)] else none
  | 7 => if cfg.baud.toNat < 8 then some [(.baud, cfg.baud.toHalf)] else none
  | 8 => ssFields cfg.ss
  | 9 => if cfg.order.toNat < 2 then some [(.bitorder, cfg.order.toHalf)] else none
  | 10 => if cfg.xfer.toNat < 2 then some [(.rxonly, cfg.xfer.toHalf)] else none
  | 11 => if cfg.size.toNat < 2 then some [(.frame, cfg.size.toHalf)] else none
  | _ => some [(.enable, 1#16)]

/-- Where SPI_INIT stands after the write half of a RegField: at the line's next RegField, or at the next line; after
line 12 at the next record, or past the loop (R39, R133). -/
def initAfter (count : Half) (n : Nat) (f : Frame) : Frame :=
  if f.sub + 1 < 2 * n then { f with sub := f.sub + 1 }
  else if f.line = 12 then f.loop count 2 13
  else f.next

/-- One step of lines 5 to 12 of SPI_INIT: an enumerant outside its set raises EnumRange (R214); else the read half or
the write half of a RegField on the record's channel (R82). -/
def initLine (count : Half) (f : Frame) (s : State) : Result :=
  match initFields f.line f.cfg with
  | none => .next (s.raise .enumRange (initCode f.line f.cfg).toWord)
  | some fields =>
    match fields[f.sub / 2]? with
    | none => .fault .noSuchLine
    | some (fld, v) =>
      if f.sub % 2 = 0 then
        regRead f.cfg.channel.toNat fld.reg s (fun old s' => .next (s'.setTop { f with sub := f.sub + 1, tmp := old }))
      else
        regWrite f.cfg.channel.toNat fld.reg (fld.insert f.tmp v) s
          (fun s' => .next (s'.setTop (initAfter count fields.length f)))

/-- SPI_INIT line 2: the record is read, once (R65, R133). A null table is refused (R136, U6), and a record beyond
those HOST gave (DESIGN CHOICE, log 13). -/
def initRecord (table : Word) (f : Frame) (s : State) : Result :=
  if table = 0#32 then .refused .nullTable
  else
    match s.cfgRead table f.idx.toNat with
    | none => .refused .beyondTable
    | some cfg => .next (s.setTop { f.next with cfg := cfg })

/-- SPI_INIT (R132 to R136). Where there is no record the loop index is 0 at line 13, to which the spec gives no value
(DESIGN CHOICE, log 27). -/
def execSpiInit (count : Half) (table : Word) (s : State) : Result :=
  operation (.spiInit count table) (fun f s =>
    match f.line with
    | 1 => .next (s.setTop { f.goto (if count = 0#16 then 13 else 2) with idx := 0#16 })
    | 2 => initRecord table f s
    | 3 => assertLine (s.channelOk f.cfg.channel) .channelRange f.cfg.channel.toWord f s
    | 4 => .next (s.setTop f.next)
    | 5 => initLine count f s
    | 6 => initLine count f s
    | 7 => initLine count f s
    | 8 => initLine count f s
    | 9 => initLine count f s
    | 10 => initLine count f s
    | 11 => initLine count f s
    | 12 => initLine count f s
    | 13 => .next s.ret
    | _ => .fault .noSuchLine) s

/-- The loop head of SPI_TRANSFER and SPI_RECEIVE, reached when the assertions have passed: `L_IDX <- 0`. On an enabled
channel in a configuration R206 leaves open the operation is refused under `LINK_OTHER = refuse` (DEDUCED, log 8). -/
def loopHead (ch : Byte) (f : Frame) (s : State) : Result :=
  match s.chans[ch.toNat]? with
  | none => .fault .noSuchChannel
  | some c =>
    if c.linkOpen ∧ s.params.linkOther = .refuse then .refused .linkOther
    else .next (s.setTop { f.next with idx := 0#16 })

/-- SPI_TRANSFER line 6: `e <- BufRead(BUF, i)` (R138); beyond the capacity it is refused (R64, U4). -/
def fetchCell (buf : Word) (f : Frame) (s : State) : Result :=
  match s.bufRead buf f.idx.toNat with
  | none => .refused .beyondCapacity
  | some e => .next (s.setTop { f.next with tmp := e })

/-- SPI_RECEIVE line 8: `BufWrite(BUF, i, d)` (R141); beyond the capacity it is refused (R64, U4). -/
def storeCell (count : Half) (buf : Word) (f : Frame) (s : State) : Result :=
  match s.bufWrite buf f.idx.toNat f.tmp with
  | none => .refused .beyondCapacity
  | some s' => .next (s'.setTop (f.loop count 5 9))

/-- SPI_TRANSFER (R137 to R139). -/
def execSpiTransfer (ch : Byte) (count : Half) (buf : Word) (s : State) : Result :=
  operation (.spiTransfer ch count buf) (fun f s =>
    match f.line with
    | 1 => assertLine (s.channelOk ch) .channelRange ch.toWord f s
    | 2 => assertLine (count != 0#16) .countZero 0#32 f s
    | 3 => assertLine (buf != 0#32) .bufferNull 0#32 f s
    | 4 => loopHead ch f s
    | 5 => waitUntil ch.toNat .txe true f s
    | 6 => fetchCell buf f s
    | 7 => regWrite ch.toNat .data f.tmp s (fun s' => .next (s'.setTop (f.loop count 5 8)))
    | 8 => waitUntil ch.toNat .txe true f s
    | 9 => waitUntil ch.toNat .bsy false f s
    | 10 => regRead ch.toNat .data s (fun _ s' => .next (s'.setTop f.next))
    | 11 => regRead ch.toNat .status s (fun _ s' => .next (s'.setTop f.next))
    | 12 => .next s.ret
    | _ => .fault .noSuchLine) s

/-- SPI_RECEIVE (R140 to R142): no wait for TXE before the dummy, no final wait. -/
def execSpiReceive (ch : Byte) (count : Half) (buf : Word) (s : State) : Result :=
  operation (.spiReceive ch count buf) (fun f s =>
    match f.line with
    | 1 => assertLine (s.channelOk ch) .channelRange ch.toWord f s
    | 2 => assertLine (count != 0#16) .countZero 0#32 f s
    | 3 => assertLine (buf != 0#32) .bufferNull 0#32 f s
    | 4 => loopHead ch f s
    | 5 => regWrite ch.toNat .data Config.dummy s (fun s' => .next (s'.setTop f.next))
    | 6 => waitUntil ch.toNat .rxne true f s
    | 7 => regRead ch.toNat .data s (fun d s' => .next (s'.setTop { f.next with tmp := d }))
    | 8 => storeCell count buf f s
    | 9 => .next s.ret
    | _ => .fault .noSuchLine) s

/-- SPI_REGWRITE (R143): no assertion. -/
def execSpiRegWrite (addr value : Word) (s : State) : Result :=
  operation (.spiRegWrite addr value) (fun f s =>
    match f.line with
    | 1 => memWrite addr value s (fun s' => .next (s'.setTop f.next))
    | 2 => .next s.ret
    | _ => .fault .noSuchLine) s

/-- SPI_REGREAD (R144): no assertion; the value goes to RESULT. -/
def execSpiRegRead (addr : Word) (s : State) : Result :=
  operation (.spiRegRead addr) (fun f s =>
    match f.line with
    | 1 => memRead addr s (fun v s' => .next { s'.setTop f.next with result := v })
    | 2 => .next s.ret
    | _ => .fault .noSuchLine) s

end Sys2Proof.Machine
end

