-- ==== Sys2Proof/Machine/Dispatch.lean ====
section
/-! DEFINITION. One arm per instruction: one step of the operation, or the frame that carries the header. -/

namespace Sys2Proof.Machine

/-- One step of an instruction: of an operation the acceptance in IDLE and one line in RUN, of a wire header its
frame. -/
def exec (i : Instr) (s : State) : Host.Outcome State Fault Refusal :=
  match i with
  | .spiInit count table => Sys2Proof.Machine.execSpiInit count table s
  | .spiTransfer ch count buf => Sys2Proof.Machine.execSpiTransfer ch count buf s
  | .spiReceive ch count buf => Sys2Proof.Machine.execSpiReceive ch count buf s
  | .spiRegWrite addr value => Sys2Proof.Machine.execSpiRegWrite addr value s
  | .spiRegRead addr => Sys2Proof.Machine.execSpiRegRead addr s
  | .accInit ch port pin => Sys2Proof.Machine.execAccInit ch port pin s
  | .accWrite ch port pin addr value => Sys2Proof.Machine.execAccWrite ch port pin addr value s
  | .accRead ch port pin addr count buf => Sys2Proof.Machine.execAccRead ch port pin addr count buf s
  | .csAssert port pin => Sys2Proof.Machine.execCsAssert port pin s
  | .csDeassert port pin => Sys2Proof.Machine.execCsDeassert port pin s
  | .wireWriteMb a => Sys2Proof.Machine.execWireWriteMb a s
  | .wireReadMb a => Sys2Proof.Machine.execWireReadMb a s
  | .wireWriteSb a => Sys2Proof.Machine.execWireWriteSb a s
  | .wireReadSb a => Sys2Proof.Machine.execWireReadSb a s

end Sys2Proof.Machine
end

