-- ==== Sys2Proof/Machine/Agents.lean ====
section
/-! DEFINITION. What each agent does when it moves, and who moves next (00_scope.md R6, 20_memory.md R78 to R80,
42_link_events.md R190 to R193, R206). -/

namespace Sys2Proof.Machine

/-! HOST -/

/-- HOST's act can take place now: a reset always (R240); a command in IDLE only (R37, R79); giving a buffer or a table
when no operation runs (R259; DESIGN CHOICE, log 21). -/
def State.actAllowed (s : State) : HostAct → Bool
  | .reset => true
  | .command _ => s.mode == .idle
  | .buffer _ _ => s.mode != .run
  | .table _ _ => s.mode != .run

/-- A command at the port in IDLE: the operation it decodes to is executed; a descriptor that does not decode raises
IllegalCommand with its `word0`, before anything is loaded (R90, R114, R219). -/
def issue (d : Descriptor) (s : State) : Result :=
  match decode d with
  | .ok i => exec i s
  | .error _ => .next (s.raise .illegalCommand d.word0)

/-- One act of HOST. -/
def hostAct (a : HostAct) (s : State) : Result :=
  match a with
  | .command d => issue d s
  | .reset => .next s.hostReset
  | .buffer ref cells => .next { s with mem := s.mem.putCells ref cells }
  | .table ref records => .next { s with mem := s.mem.putRecords ref records }

/-- HOST's turn: its next act, if it can take place now; else nothing. HOST's acts are one queue, so an act that must
wait holds back those listed behind it, a reset too; a reset that comes first acts in every state, as R240 says
(DESIGN CHOICE, log 28). -/
def hostStep (s : State) : Result :=
  match s.inbox with
  | [] => .next s
  | a :: rest => if s.actAllowed a then hostAct a { s with inbox := rest } else .next s

/-! SEQ -/

/-- SEQ's turn: one line of the operation on top of the stack; nothing in IDLE and FAULT (R37, R39, R224). -/
def seqStep (s : State) : Result :=
  match s.mode with
  | .idle => .next s
  | .fault => .next s
  | .run =>
    match s.pc with
    | [] => .fault .emptyStack
    | f :: _ => exec f.op s

/-! LINK -/

/-- The 8-bit frame in flight on channel `c` is a header: a selected device waits for one (R110, R199). -/
def State.headerDue (s : State) (c : Nat) : Bool := (s.listeners c).any (fun d => d.slave.phase == .header)

/-- A step of the user-supplied relation of LINK_OTHER (R206). It may change the data path, the flags and the devices
and complete one frame; the control registers are SEQ's alone (R82). -/
def State.linkOtherStep (s : State) (c : Nat) (ch : Channel) (e : LinkEffect) : State :=
  { s.setChan c { e.chan with ctrl1 := ch.ctrl1, ctrl2 := ch.ctrl2 } with
    trace := match e.frame with
      | none => s.trace
      | some (tx, rx) => s.trace ++ [.frame c tx rx]
    devices := e.devices
    lnk := c }

/-- What LINK[c] does in a configuration R206 leaves open: under `refuse` no step; else what the supplied relation
says. -/
def State.linkOtherEffect (s : State) (c : Nat) (ch : Channel) : Option LinkEffect :=
  match s.params.linkOther with
  | .refuse => none
  | .supplied => if ch.linkOpen then Config.linkOther s.tick c s.trace ch s.devices else none

/-- LINK[c]'s turn (R190 to R193): LINK_START, or LINK_COMPLETE of the frame in flight, which is executed as the header
form it carries when a device waits for a header; where neither is enabled, nothing (R198, V-LINK-6, V-LINK-7). -/
def linkStep (c : Nat) (s : State) : Result :=
  match s.chans[c]? with
  | none => .next s
  | some ch =>
    if ch.startEnabled then .next { s.setChan c ch.started with lnk := c }
    else if ch.completeEnabled then
      if s.headerDue c && !ch.wide then exec (decodeHeader ch.shift.lowByte) { s with lnk := c }
      else .next (s.completeFrame c ch (ch.shift &&& ch.mask))
    else
      match s.linkOtherEffect c ch with
      | none => .next s
      | some e => .next (s.linkOtherStep c ch e)

/-! Who moves -/

/-- HOST has an act that can take place now. -/
def State.hostReady (s : State) : Bool :=
  match s.inbox with
  | [] => false
  | a :: _ => s.actAllowed a

/-- LINK[c] has an enabled step. -/
def State.linkReady (s : State) (c : Nat) : Bool :=
  match s.chans[c]? with
  | none => false
  | some ch => ch.startEnabled || ch.completeEnabled || (s.linkOtherEffect c ch).isSome

/-- The agents that have a step, HOST first, then SEQ, then the link agents in order. -/
def State.readyTurns (s : State) : List Turn :=
  (if s.hostReady then [.host] else [])
    ++ ((if s.mode = .run then [.seq] else [])
      ++ ((List.range s.chans.length).filter s.linkReady).map .link)

/-- What may come next: one of the ready agents moves, or nobody does. Nothing forces a link agent (R198) or HOST (R79);
SEQ in RUN goes on unless another agent moves before it (R78, R79; DESIGN CHOICE, log 1). -/
def State.choices (s : State) : List (Option Turn) :=
  (if s.mode = .run then [] else [none]) ++ s.readyTurns.map some

/-- Who moves next: whom the schedule names; without a schedule a free choice of what may come next (R79, R198; DESIGN
CHOICE, log 1). -/
def State.nextTurn (s : State) : Option Turn :=
  match s.turns with
  | t :: _ => some t
  | [] =>
    match s.choices with
    | [x] => x
    | xs => (xs[Config.pick s.tick % xs.length]?).getD none

/-- The turn spent and the step counted, which every step does: in this state the chosen agent moves. -/
def State.spendTurn (s : State) : State := { s with turns := s.turns.tail, tick := s.tick + 1 }

/-- The step of the agent whose turn it is. -/
def agentStep (t : Turn) (s : State) : Result :=
  match t with
  | .host => hostStep s
  | .seq => seqStep s
  | .link c => linkStep c s

end Sys2Proof.Machine
end

