-- ==== Sys2Proof/Machine/Step.lean ====
section
/-! DEFINITION. One step of the machine, and how an instruction is placed so that the very next step runs it. -/

namespace Sys2Proof.Machine

/-- One step: the agent whose turn it is takes one atomic step (R6, R76, R78, R79). Where nobody moves the machine waits,
and only the count of steps goes on: an idle block does nothing until HOST issues a command (R246), FAULT is left by
reset only (R224), and a link agent may leave an enabled step for later or for ever (R198). -/
def step (s : State) : Host.Outcome State Fault Refusal :=
  match s.nextTurn with
  | none => .next s.spendTurn
  | some t => agentStep t s.spendTurn

/-- A HOST command placed at the port: the sequencer idle, the descriptor HOST's next act, HOST's turn
(DESIGN CHOICE, log 20). -/
def State.placeCommand (s : State) (d : Descriptor) : State :=
  { s with mode := .idle, pc := [], inbox := .command d :: s.inbox, turns := .host :: s.turns }

/-- An internal operation placed as if called: its frame alone on the stack, SEQ's turn (DESIGN CHOICE, log 20). -/
def State.placeCall (s : State) (i : Instr) : State :=
  { s with mode := .run, pc := [Frame.start i], turns := .seq :: s.turns }

/-- A header byte placed on the wire: channel 0 enabled as an 8-bit full-duplex master with the byte in its shifter, a
reference slave on its line `(A, 0)`, which is low, waiting for a header, and LINK[0]'s turn (DESIGN CHOICE, log 20). -/
def State.placeHeader (s : State) (b : Byte) : State :=
  { s with
    chans := s.chans.modify 0 (fun ch =>
      { ch with ctrl1 := 0x0044#16, txe := true, bsy := true, shift := b.toHalf, shiftActive := true })
    pins := setPinLatch s.pins 0 0 false
    devices := ⟨0, 0#8, 0#8, ⟨Vector.replicate 64 0#8, 0#6, .header, false⟩⟩ :: s.devices
    turns := .link 0 :: s.turns }

/-- The state with the instruction of the table whose low `nbits` bits are `w` placed so that the very next step runs
it (DESIGN CHOICE, log 20): a HOST command at the command port, an internal operation as a call, a header byte on the wire. A
number that is no instruction is presented at the command port. -/
def State.withFetchWord (s : State) (nbits w : Nat) : State :=
  match decodeTableWord nbits w with
  | none => s.placeCommand (descriptorOfNat (w % 2 ^ nbits))
  | some i =>
    match encode i with
    | .header b => s.placeHeader b
    | .words ws => if i.issuable then s.placeCommand (Descriptor.ofWords ws) else s.placeCall i

end Sys2Proof.Machine
end

