-- ==== Sys2Proof/Safety.lean ====
section
/-! DEFINITION. The terms statements about the machine use: where the sequencer stands, the invariants, what R114 calls
illegal, the closed form of R134, the words a channel has been given, the chip-select phases, an operation's return. -/

namespace Sys2Proof.Machine

/-! Where the sequencer stands -/

/-- SEQ runs and `f` is on top of its stack (R37, R38). -/
def State.running (s : State) (f : Frame) (rest : List Frame) : Prop := s.mode = .run ∧ s.pc = f :: rest

/-- The frame of operation `i` at the beginning of line `n`. -/
def Frame.atLine (f : Frame) (i : Instr) (n : Nat) : Prop := f.op = i ∧ f.line = n

/-- `caller`, where it stands, calls `callee`: the fixed call graph (R117, R160). -/
def calls (p : Params) (caller : Frame) (callee : Instr) : Bool :=
  match caller.op with
  | .accInit ch port pin =>
    (caller.line == 1 && callee == .accWrite ch port pin 0x31#8 0x01#8)
      || (caller.line == 2 && callee == .accWrite ch port pin 0x2D#8 0x00#8)
      || (caller.line == 3 && callee == .accWrite ch port pin 0x2D#8 0x08#8)
  | .accWrite ch port pin _ _ =>
    (caller.line == 3 && callee == .csAssert port pin)
      || (caller.line == 4 && callee == .spiTransfer ch 2#16 p.hdrRef)
      || (caller.line == 5 && callee == .csDeassert port pin)
  | .accRead ch port pin _ count buf =>
    (caller.line == 2 && callee == .csAssert port pin)
      || (caller.line == 3 && callee == .spiTransfer ch 1#16 p.hdrRef)
      || (caller.line == 4 && callee == .spiReceive ch count buf)
      || (caller.line == 5 && callee == .csDeassert port pin)
  | _ => false

/-- The place within a line of SPI_INIT is one of the line's steps, the record's channel has been checked, and what a
RegField's read half read is still what the register holds (R82). -/
def State.initPlaceOk (s : State) (f : Frame) : Bool :=
  match initFields f.line f.cfg with
  | none => true
  | some fields =>
    match fields[f.sub / 2]? with
    | none => false
    | some (fld, _) =>
      f.sub % 2 == 0 ||
        (match s.chans[f.cfg.channel.toNat]? with
        | none => false
        | some ch => ch.readValue fld.reg == f.tmp)

/-- A frame stands at a line of its operation, with what the earlier lines have checked (R38, R133, R138, R141). -/
def State.frameOk (s : State) (f : Frame) : Bool :=
  match f.op with
  | .spiInit _ _ =>
    (1 ≤ f.line && f.line ≤ 13)
      && (f.line < 4 || 12 < f.line || f.cfg.channel.toNat < s.params.nCh)
      && (f.line < 5 || 12 < f.line || s.initPlaceOk f)
  | .spiTransfer ch _ _ => (1 ≤ f.line && f.line ≤ 12) && (f.line == 1 || ch.toNat < s.params.nCh)
  | .spiReceive ch _ _ => (1 ≤ f.line && f.line ≤ 9) && (f.line == 1 || ch.toNat < s.params.nCh)
  | .spiRegWrite _ _ => 1 ≤ f.line && f.line ≤ 2
  | .spiRegRead _ => 1 ≤ f.line && f.line ≤ 2
  | .accInit _ _ _ => 1 ≤ f.line && f.line ≤ 5
  | .accWrite _ _ _ _ _ => 1 ≤ f.line && f.line ≤ 6
  | .accRead _ _ _ _ _ _ => 1 ≤ f.line && f.line ≤ 6
  | .csAssert _ _ => 1 ≤ f.line && f.line ≤ 4
  | .csDeassert _ _ => 1 ≤ f.line && f.line ≤ 4
  | .wireWriteMb _ => false
  | .wireReadMb _ => false
  | .wireWriteSb _ => false
  | .wireReadSb _ => false

/-- A stack of at most three frames, each calling the one above it (R38, R160). -/
def State.stackOk (s : State) : List Frame → Bool
  | [] => true
  | [f] => s.frameOk f
  | [g, f] => s.frameOk g && calls s.params f g.op
  | [h, g, f] => s.frameOk h && calls s.params g h.op && calls s.params f g.op
  | _ => false

/-- The register sets are those of the `N_CH` channels, SEQ runs exactly while its stack is not empty, the stack is one
the operations make (R20, R37 to R39), and only a fault leaves operand latches behind (R40, R222). -/
def State.positionOk (s : State) : Bool :=
  s.chans.length == s.params.nCh && ((s.mode == .run) == !s.pc.isEmpty) && s.stackOk s.pc
    && (s.mode == .fault || s.latches.isEmpty)

/-! The operand latches by name (R40) -/

/-- The operand latches an operation is given its operands in: `L_CH`, `L_COUNT`, `L_BUF`, `L_TABLE`, `L_PORT`, `L_PIN`,
`L_ADDR`, `L_VALUE`, `L_RADDR`, `L_RVALUE`. -/
inductive Operand where
  | ch
  | count
  | buf
  | table
  | port
  | pin
  | addr
  | value
  | raddr
  | rvalue
  deriving DecidableEq, Repr

/-- The latches an operation loads, with what it loads into them (R40, R93 to R99). -/
def operandsOf : Instr → List (Operand × Word)
  | .spiInit count table => [(.count, count.setWidth 32), (.table, table)]
  | .spiTransfer ch count buf => [(.ch, ch.toWord), (.count, count.setWidth 32), (.buf, buf)]
  | .spiReceive ch count buf => [(.ch, ch.toWord), (.count, count.setWidth 32), (.buf, buf)]
  | .spiRegWrite addr value => [(.raddr, addr), (.rvalue, value)]
  | .spiRegRead addr => [(.raddr, addr)]
  | .accInit ch port pin => [(.ch, ch.toWord), (.port, port.toWord), (.pin, pin.toWord)]
  | .accWrite ch port pin addr value =>
    [(.ch, ch.toWord), (.port, port.toWord), (.pin, pin.toWord), (.addr, addr.toWord), (.value, value.toWord)]
  | .accRead ch port pin addr count buf =>
    [(.ch, ch.toWord), (.port, port.toWord), (.pin, pin.toWord), (.addr, addr.toWord), (.count, count.setWidth 32),
      (.buf, buf)]
  | .csAssert port pin => [(.port, port.toWord), (.pin, pin.toWord)]
  | .csDeassert port pin => [(.port, port.toWord), (.pin, pin.toWord)]
  | .wireWriteMb _ => []
  | .wireReadMb _ => []
  | .wireWriteSb _ => []
  | .wireReadSb _ => []

/-- What a latch holds: the innermost operation's that loads it; `none` where it holds no value (R40). -/
def State.operand (s : State) (l : Operand) : Option Word := s.latched.findSome? (fun x => (operandsOf x.op).lookup l)

/-! Invariants of the registers -/

/-- The flags of a channel agree with its hidden state: a frame in progress shows BSY, BSY without one means that a word
waits (R194), and only a pending overrun can be armed (R35). -/
def Channel.settled (ch : Channel) : Bool :=
  (!ch.shiftActive || ch.bsy) && (!ch.bsy || ch.shiftActive || !ch.txe) && (!ch.ovrArm || ch.ovr)

/-- Every channel's flags are settled. -/
def State.flagsOk (s : State) : Bool := s.chans.all Channel.settled

/-- FAULT_CODE is 0 outside FAULT and a code of R212 in it; without a fault FAULT_INFO is 0 (R41, R212). -/
def State.faultRegsOk (s : State) : Bool :=
  if s.mode = .fault then 1 ≤ s.faultCode.toNat && s.faultCode.toNat ≤ 8
  else s.faultCode == 0#8 && s.faultInfo == 0#32

/-- The canonical forms of the state's lists: the memories, and the sessions of ACC_STATE. -/
def State.listsOk (s : State) : Bool := s.mem.wf && sessionsRise s.inits

/-! Registers and reset -/

/-- The offset of a register in its channel's block (R61). -/
def Reg.offset : Reg → Word
  | .ctrl1 => 0x00#32
  | .ctrl2 => 0x04#32
  | .status => 0x08#32
  | .data => 0x0C#32

/-- The reset values the spec gives (R40, R241 to R243, R246): of the channel registers, of the sequencer, of the
operand latches (all invalid), of the sessions, and the empty TRACE. -/
structure State.ResetValues (t : State) : Prop where
  channels : t.chans.length = t.params.nCh
  registers : ∀ (c : Nat) (ch : Channel), t.chans[c]? = some ch → ch.ctrl1 = 0x0000#16 ∧ ch.ctrl2 = 0x0000#16
    ∧ ch.statusWord = 0x0002#16 ∧ ch.shiftActive = false ∧ ch.ovrArm = false
  idle : t.mode = .idle
  position : t.pc = []
  operands : t.latched = []
  faultCode : t.faultCode = 0x00#8
  faultInfo : t.faultInfo = 0x00000000#32
  polls : t.polls = 0
  sessions : ∀ x, t.accState x = .uninit
  trace : t.trace = []

/-- The control bits the configuration covers are all that differ (R25): `CTRL1[15:12]` and `CTRL2` but for `SSOE`
agree. -/
def sameUncovered (ch ch' : Channel) : Prop :=
  ch'.ctrl1 &&& 0xF000#16 = ch.ctrl1 &&& 0xF000#16 ∧ ch'.ctrl2 &&& 0xFFFB#16 = ch.ctrl2 &&& 0xFFFB#16

/-- The buffer has at least `n` cells (R64, R259). -/
def State.hasCells (s : State) (ref : Word) (n : Nat) : Prop := ∀ i, i < n → (s.bufRead ref i).isSome

/-! Faults and waits, read off the pseudocode -/

/-- The state a fault leaves (R222): FAULT_CODE, FAULT_INFO, an empty stack, FAULT, the operand latches at their values,
and nothing else. -/
def State.faulted (s : State) (code : Byte) (info : Word) : State :=
  { s with faultCode := code, faultInfo := info, pc := [], latches := s.latched, mode := .fault }

/-- The assertions of the pseudocode: at a line of an operation the condition it asserts, with the code and the
information of its fault (R133, R138, R141, R162, R163, R212). `cfg` is the record SPI_INIT stands at. -/
def contract (s : State) (i : Instr) (line : Nat) (cfg : CfgRecord) : Option (Bool × Byte × Word) :=
  match i, line with
  | .spiInit _ _, 3 => some (cfg.channel.toNat < s.params.nCh, 1#8, cfg.channel.toWord)
  | .spiTransfer ch _ _, 1 => some (ch.toNat < s.params.nCh, 1#8, ch.toWord)
  | .spiTransfer _ count _, 2 => some (count != 0#16, 3#8, 0#32)
  | .spiTransfer _ _ buf, 3 => some (buf != 0#32, 4#8, 0#32)
  | .spiReceive ch _ _, 1 => some (ch.toNat < s.params.nCh, 1#8, ch.toWord)
  | .spiReceive _ count _, 2 => some (count != 0#16, 3#8, 0#32)
  | .spiReceive _ _ buf, 3 => some (buf != 0#32, 4#8, 0#32)
  | .csAssert port _, 1 => some (port.toNat < 5, 5#8, port.toWord)
  | .csAssert port pin, 2 => some (pin.toNat < s.params.pinMaxOf port.toNat, 6#8, pin.toWord)
  | .csDeassert port _, 1 => some (port.toNat < 5, 5#8, port.toWord)
  | .csDeassert port pin, 2 => some (pin.toNat < s.params.pinMaxOf port.toNat, 6#8, pin.toWord)
  | _, _ => none

/-- The waits of the pseudocode: at a line of an operation the channel polled, the flag, and the value awaited (R138,
R141). -/
def waits (i : Instr) (line : Nat) : Option (Byte × Flag × Bool) :=
  match i, line with
  | .spiTransfer ch _ _, 5 => some (ch, .txe, true)
  | .spiTransfer ch _ _, 8 => some (ch, .txe, true)
  | .spiTransfer ch _ _, 9 => some (ch, .bsy, false)
  | .spiReceive ch _ _, 6 => some (ch, .rxne, true)
  | _, _ => none

/-- The enumerant a line of SPI_INIT decodes and how many codes it has (R100, R133). -/
def enumerant (line : Nat) (r : CfgRecord) : Option (Byte × Nat) :=
  match line with
  | 5 => some (r.mode, 4)
  | 6 => some (r.role, 2)
  | 7 => some (r.baud, 8)
  | 8 => some (r.ss, 3)
  | 9 => some (r.order, 2)
  | 10 => some (r.xfer, 2)
  | 11 => some (r.size, 2)
  | _ => none

/-- What no step of an operation touches: the parameters, HOST's acts to come, and the model's own fields. -/
structure SameWorld (s t : State) : Prop where
  params : t.params = s.params
  inbox : t.inbox = s.inbox
  turns : t.turns = s.turns
  tick : t.tick = s.tick
  epoch : t.epoch = s.epoch

/-- The protocol side untouched: pins, HDR, RESULT, ACC_STATE, the TRACE, the devices. -/
structure SameProtocol (s t : State) : Prop where
  pins : t.pins = s.pins
  hdr : t.hdr = s.hdr
  result : t.result = s.result
  inits : t.inits = s.inits
  trace : t.trace = s.trace
  devices : t.devices = s.devices
  lnk : t.lnk = s.lnk

/-! The command port -/

/-- What R114 calls an illegal command, read off the descriptor's bits: an opcode that is not in the map of R92, an
internal opcode, or a nonzero reserved field of the format. -/
def illegalDescriptor (d : Descriptor) : Bool :=
  let opc := (d.word0 &&& 0xFF#32).toNat
  !([0x01, 0x02, 0x03, 0x04, 0x05, 0x10, 0x11, 0x12, 0x13, 0x14].contains opc)
    || [0x11, 0x13, 0x14].contains opc
    || (opc == 0x01 && (d.word0 &&& 0x0000FF00#32) != 0#32)
    || ((opc == 0x04 || opc == 0x05) && (d.word0 &&& 0xFFFFFF00#32) != 0#32)
    || (opc == 0x12 && (d.word1 &&& 0x0000FF00#32) != 0#32)

/-! SPI_INIT in closed form (R134) -/

/-- Every enumerant of the record is in its legal set (R100). -/
def recordLegal (r : CfgRecord) : Bool :=
  r.mode.toNat < 4 && r.role.toNat < 2 && r.baud.toNat < 8 && r.ss.toNat < 3 && r.order.toNat < 2
    && r.xfer.toNat < 2 && r.size.toNat < 2

/-- `new1` of R134. -/
def newCtrl1 (old1 : Half) (r : CfgRecord) : Half :=
  (old1 &&& 0xF300#16) ||| r.mode.toHalf ||| (r.role.toHalf <<< 2) ||| (r.baud.toHalf <<< 3) ||| 0x0040#16
    ||| (r.order.toHalf <<< 7) ||| (r.xfer.toHalf <<< 10) ||| (r.size.toHalf <<< 11)
    ||| (if r.ss = 0#8 then 0x0300#16 else 0x0000#16)

/-- `new2` of R134. -/
def newCtrl2 (old2 : Half) (r : CfgRecord) : Half :=
  if r.ss = 0#8 then old2 else if r.ss = 1#8 then old2 ||| 0x0004#16 else old2 &&& 0xFFFB#16

/-- SEQ steps that the lines 5 to 12 of a record take: two for each RegField (R82, R133). -/
def initSteps (r : CfgRecord) : Nat := if r.ss = 0#8 then 20 else 18

/-- SEQ steps of an SPI_INIT over a table from its line 1: that line, for each record lines 2 to 4 and its fields, and
line 13. -/
def initTableSteps (records : List CfgRecord) : Nat := 2 + (records.map (fun r => 3 + initSteps r)).sum

/-- The two control registers of each channel. -/
def State.controls (s : State) : List (Half × Half) := s.chans.map (fun ch => (ch.ctrl1, ch.ctrl2))

/-- The control registers after a record: its channel's by the closed form, the others as they were (R134). -/
def programRecord (controls : List (Half × Half)) (r : CfgRecord) : List (Half × Half) :=
  controls.modify r.channel.toNat (fun old => (newCtrl1 old.1 r, newCtrl2 old.2 r))

/-- SPI_INIT stands at its line 1 with a table whose records HOST gave and are legal; the schedule has the steps it takes
up to its return, with those of the link agents between them in any order and number. -/
structure State.initRun (s : State) (f : Frame) (rest : List Frame) (count : Half) (table : Word)
    (records : List CfgRecord) (ts more : List Turn) : Prop where
  running : s.running f rest
  entry : f.atLine (.spiInit count table) 1
  counted : records.length = count.toNat
  given : ∀ i, i < count.toNat → s.cfgRead table i = records[i]?
  notNull : table ≠ 0#32 ∨ count = 0#16
  legal : records.all recordLegal = true
  channels : ∀ r ∈ records, r.channel.toNat < s.params.nCh ∧ r.channel.toNat < s.chans.length
  schedule : s.turns = ts ++ more
  noHost : .host ∉ ts
  steps : ts.count .seq = initTableSteps records

/-! Frames on a channel -/

/-- The frames on channel `c`, in order: the sent words with the received ones (R45). -/
def framesOn (c : Nat) (trace : List Event) : List (Half × Half) :=
  trace.filterMap (fun e => match e with
    | .frame c' tx rx => if c' = c then some (tx, rx) else none
    | .cs _ _ _ => none)

/-- The sent words of the frames on channel `c`, in order (R45, R203). -/
def sentOn (c : Nat) (trace : List Event) : List Half := (framesOn c trace).map Prod.fst

/-- The words given to the channel whose frame has not completed, as they go on the wire: the shifter's, then TXBUF's
(R203). -/
def Channel.pending (ch : Channel) : List Half :=
  (if ch.shiftActive then [ch.shift &&& ch.mask] else []) ++ (if ch.txe then [] else [ch.txbuf &&& ch.mask])

/-- All words given to channel `c`, sent or pending (R203). -/
def State.wordsGiven (s : State) (c : Nat) : List Half :=
  sentOn c s.trace ++ (match s.chans[c]? with
    | none => []
    | some ch => ch.pending)

/-- A channel in which LINK steps, with nothing in flight and nothing waiting (R139, R142). -/
def Channel.ready (ch : Channel) : Bool := ch.linkOn && ch.txe && !ch.shiftActive

/-- The eager schedule of an SPI_TRANSFER from its line 1: the three assertions and the loop head, for each word the
poll, the cell, the write and the two link steps, then lines 8 to 12 (95_test_vectors.md, "eager link"). -/
def transferTurns (c n : Nat) : List Turn :=
  List.replicate 4 .seq
    ++ ((List.replicate n [Turn.seq, .seq, .seq, .link c, .link c]).flatten ++ List.replicate 5 .seq)

/-- The eager schedule of an SPI_RECEIVE from its line 1: the three assertions and the loop head, for each word the
dummy, the two link steps, the poll, the read and the cell, then line 9. -/
def receiveTurns (c n : Nat) : List Turn :=
  List.replicate 4 .seq
    ++ ((List.replicate n [Turn.seq, .link c, .link c, .seq, .seq, .seq]).flatten ++ [.seq])

/-- The eager schedule of an ACC_WRITE from its line 1: the two cells of HDR, the call and the four lines of CS_ASSERT,
the call and the transfer of two words, the call and the four lines of CS_DEASSERT, line 6. -/
def accWriteTurns (c : Nat) : List Turn :=
  List.replicate 8 .seq ++ (transferTurns c 2 ++ List.replicate 6 .seq)

/-- The eager schedule of an ACC_READ of `n` words from its line 1. -/
def accReadTurns (c n : Nat) : List Turn :=
  List.replicate 7 .seq ++ (transferTurns c 1 ++ (.seq :: (receiveTurns c n ++ List.replicate 6 .seq)))

/-- The eager schedule of an ACC_INIT from its line 1: each write with its call, then lines 4 and 5. -/
def accInitTurns (c : Nat) : List Turn :=
  (List.replicate 3 (Turn.seq :: accWriteTurns c)).flatten ++ [.seq, .seq]

/-- Where the sequencer stands when the operation on top has returned: in the caller's next line, or idle (R39). -/
def State.returnedTo (t : State) (rest : List Frame) : Prop :=
  match rest with
  | [] => t.mode = .idle ∧ t.pc = []
  | g :: gs => t.mode = .run ∧ t.pc = g.next :: gs

/-- The events of a transaction's frames on channel `c`: the sent words with the received ones (R45). -/
def framesOf (c : Nat) (sent received : List Half) : List Event :=
  List.zipWith (fun tx rx => Event.frame c tx rx) sent received

/-- The first `n` cells of a buffer, all within its capacity (R64). -/
def State.firstCells (s : State) (ref : Word) (n : Nat) (cells : List Half) : Prop :=
  cells.length = n ∧ ∀ i, i < n → s.bufRead ref i = cells[i]?

/-! Chip-select phases (R174) -/

/-- The phases of R174. -/
inductive CsPhase where
  | idle
  | header
  | data
  | release
  | faulted
  deriving DecidableEq, Repr

/-- The phase of an accelerometer operation whose chip-select is asserted at line `a`, whose header goes out at line
`a + 1`, whose data, if any, come at line `d`, and which releases at line 5 (R165, R171, R174). -/
def windowPhase (a : Nat) (d : Option Nat) (line : Nat) (callee : Option Frame) : CsPhase :=
  if line = a then
    match callee with
    | some g => if g.line = 4 then .header else .idle
    | none => .idle
  else if line = a + 1 then .header
  else if d = some line then .data
  else if line = 5 then
    match callee with
    | some g => if g.line = 4 then .idle else .release
    | none => .release
  else .idle

/-- The phase and the chip-select line of a frame's session, if the frame is of an accelerometer transaction. -/
def Frame.window (f : Frame) (callee : Option Frame) : Option (CsPhase × Byte × Byte) :=
  match f.op with
  | .accWrite _ port pin _ _ => some (windowPhase 3 none f.line callee, port, pin)
  | .accRead _ port pin _ _ _ => some (windowPhase 2 (some 4) f.line callee, port, pin)
  | _ => none

/-- The transaction in progress: on top of the stack, or just below its callee. -/
def csWindow : List Frame → Option (CsPhase × Byte × Byte)
  | [] => none
  | f :: rest =>
    match f.window none with
    | some w => some w
    | none => rest.head?.bind (fun f' => f'.window (some f))

/-- The phase of the protocol layer, a function of `SEQ.pc` (R174). -/
def State.csPhase (s : State) : CsPhase :=
  if s.mode = .fault then .faulted
  else match csWindow s.pc with
    | some (ph, _, _) => ph
    | none => .idle

/-- In the phases header, data and release the session's chip-select line is low (R172, R174). -/
def State.selectOk (s : State) : Bool :=
  match csWindow s.pc with
  | some (ph, port, pin) => ph == .idle || !(s.pin port.toNat pin.toNat)
  | none => true

/-! Whose step it is -/

/-- The next step is SEQ's, with `f` on top of its stack. -/
def State.seqOn (s : State) (f : Frame) : Prop :=
  s.nextTurn = some .seq ∧ s.mode = .run ∧ s.pc.head? = some f

/-- The next step is HOST's act `a`. -/
def State.hostActs (s : State) (a : HostAct) : Prop :=
  s.nextTurn = some .host ∧ s.inbox.head? = some a ∧ s.actAllowed a = true

/-- The operation at the bottom of the stack is one HOST may issue (R92, R177). -/
def State.entryOk (s : State) : Bool :=
  match s.pc.getLast? with
  | none => true
  | some f => f.op.issuable

/-! Runs -/

/-- A state that has not gone wrong: no claim of the spec is about FAULT (R223). -/
def State.safe (s : State) : Prop := s.mode ≠ .fault

/-- `t` is reached from `s` after `n` steps of whatever agents, and only then does the stack fall to `depth` frames: the
operation on top of `s` has just returned (R39, R79). -/
def firstReturn (s t : State) (n depth : Nat) : Prop :=
  Host.Core.run core n s = .next t ∧ t.pc.length ≤ depth
    ∧ ∀ m u, m < n → Host.Core.run core m s = .next u → depth < u.pc.length

end Sys2Proof.Machine
end

