-- ==== Sys2Proof/Certificates/Slice0/Obligations.lean ====
section
/-! DEFINITION. The statements about the machine, family by family: encodings, the command port and the agents, reset,
the registers, the SPI operations, the accelerometer operations, the link and the slave, the whole machine. -/

open Sys2Proof Sys2Proof.Machine

/-! Encodings -/

/-- R90 to R99, R110: whatever the operands, the words of an instruction decode to that instruction. -/
def Obligations.DecodeEncodeAllInstructions : Prop :=
  ∀ i : Instr, decodeCode (encode i) = .ok i

/-- R91 to R99, R110: a descriptor that decodes is, in its own words, the encoding of what it decodes to, and a header
byte likewise: no two codes mean the same instruction. -/
def Obligations.DecodedCodeIsItsEncoding : Prop :=
  (∀ (d : Descriptor) (i : Instr), decode d = .ok i →
      ∃ ws, encode i = .words ws ∧ descriptorLength (d.word0.extractLsb' 0 8) = some ws.length
        ∧ ws = [d.word0, d.word1, d.word2].take ws.length)
    ∧ ∀ b : Byte, encode (decodeHeader b) = .header b

/-- R91, R92: the length of a descriptor is a function of the opcode alone, the table's, and the words beyond it play
no part in what is decoded. -/
def Obligations.DecoderTakesLengthByOpcode : Prop :=
  (∀ opc : Byte, descriptorLength opc =
      if opc.toNat ∈ [0x10, 0x13, 0x14] then some 1
      else if opc.toNat ∈ [0x01, 0x02, 0x03, 0x05, 0x11] then some 2
      else if opc.toNat ∈ [0x04, 0x12] then some 3
      else none)
    ∧ ∀ (d e : Descriptor) (n : Nat), descriptorLength (d.word0.extractLsb' 0 8) = some n →
        [d.word0, d.word1, d.word2].take n = [e.word0, e.word1, e.word2].take n → decode d = decode e

/-- R110, R111, R161: with a usable address the two header forms of the block are the address with bit 6, and with bits
7 and 6; the address bits are untouched, and the wire reads them as the multi-byte write and read of that address. -/
def Obligations.HeaderCarriesAddress : Prop :=
  ∀ a : Byte, a.toNat ≤ 0x3F →
    writeHeader a = a ||| 0x40#8 ∧ readHeader a = a ||| 0xC0#8
      ∧ (writeHeader a).toNat = a.toNat + 0x40 ∧ (readHeader a).toNat = a.toNat + 0xC0
      ∧ decodeHeader (writeHeader a) = .wireWriteMb (a.setWidth 6)
      ∧ decodeHeader (readHeader a) = .wireReadMb (a.setWidth 6)

/-- 30_encoding.md R93 to R99, R110, R113: words written out from the formats decode to what they stand for. -/
def Obligations.SampleWordsDecode : Prop :=
  decode ⟨0x00010001#32, 0x00001000#32, 0#32⟩ = .ok (.spiInit 1#16 0x1000#32)
    ∧ decode ⟨0x00030002#32, 0x00002000#32, 0#32⟩ = .ok (.spiTransfer 0#8 3#16 0x2000#32)
    ∧ decode ⟨0x00020103#32, 0x00003000#32, 0#32⟩ = .ok (.spiReceive 1#8 2#16 0x3000#32)
    ∧ decode ⟨0x00000004#32, 0x40013000#32, 0x0000F000#32⟩ = .ok (.spiRegWrite 0x40013000#32 0x0000F000#32)
    ∧ decode ⟨0x00000005#32, 0x40013008#32, 0#32⟩ = .ok (.spiRegRead 0x40013008#32)
    ∧ decode ⟨0x04000010#32, 0#32, 0#32⟩ = .ok (.accInit 0#8 0#8 4#8)
    ∧ decode ⟨0x04000011#32, 0x0000082D#32, 0#32⟩ = .ok (.accWrite 0#8 0#8 4#8 0x2D#8 0x08#8)
    ∧ decode ⟨0x04000012#32, 0x00060032#32, 0x00004000#32⟩
        = .ok (.accRead 0#8 0#8 4#8 0x32#8 6#16 0x4000#32)
    ∧ decode ⟨0x04000013#32, 0#32, 0#32⟩ = .ok (.csAssert 0#8 4#8)
    ∧ decode ⟨0x04000014#32, 0#32, 0#32⟩ = .ok (.csDeassert 0#8 4#8)
    ∧ decodeHeader 0x71#8 = .wireWriteMb 0x31#6 ∧ decodeHeader 0xF2#8 = .wireReadMb 0x32#6
    ∧ decodeHeader 0x2D#8 = .wireWriteSb 0x2D#6 ∧ decodeHeader 0x80#8 = .wireReadSb 0x00#6

/-! The command port and the agents -/

/-- R114, R219, R222: a descriptor R114 calls illegal, presented in IDLE, raises IllegalCommand with its `word0`, and
nothing else of the state changes. -/
def Obligations.IllegalCommandRaises : Prop :=
  ∀ (d : Descriptor) (s : State), s.mode = .idle → illegalDescriptor d = true →
    issue d s = .next (s.faulted 8#8 d.word0)

/-- R39, R90, R92: any other descriptor is taken whole in one step: its operation stands at its first line with the
operands the descriptor carries, and SEQ runs; nothing else of the state changes. That the loop index stands at 0 before
any loop has begun is the model's choice, log 27. -/
def Obligations.LegalCommandIsAccepted : Prop :=
  ∀ (d : Descriptor) (s : State), s.mode = .idle → illegalDescriptor d = false →
    ∃ (i : Instr) (f : Frame), decode d = .ok i ∧ i.issuable = true ∧ f.op = i ∧ f.line = 1 ∧ f.idx = 0#16
      ∧ exec i s = .next { s with mode := .run, pc := f :: s.pc } ∧ issue d s = exec i s

/-- R76, R78, R90, R110: a step runs the instruction that is up. HOST's command is the instruction its descriptor
decodes to; SEQ's step is one of the operation on top of the stack; LINK's completion of an 8-bit frame a device takes
for a header is the wire form of its byte (that a header form is run by the completion, and the field `lnk`, are the
model's choice, log 25). Around it the step spends the turn and counts itself, takes the command from HOST's list, and
notes the link agent's channel; and whom the schedule names moves (the schedule and the count are the model's choice,
log 1). -/
def Obligations.StepRunsTheInstruction : Prop :=
  (∀ (s : State) (d : Descriptor) (rest : List HostAct) (i : Instr), s.nextTurn = some .host → s.mode = .idle →
      s.inbox = .command d :: rest → decode d = .ok i →
      step s = exec i { s with inbox := rest, turns := s.turns.tail, tick := s.tick + 1 })
    ∧ (∀ (s : State) (f : Frame) (rest : List Frame), s.nextTurn = some .seq → s.running f rest →
      step s = exec f.op { s with turns := s.turns.tail, tick := s.tick + 1 })
    ∧ (∀ (s : State) (c : Nat) (ch : Channel), s.nextTurn = some (.link c) → s.chans[c]? = some ch →
      ch.completeEnabled = true → ch.wide = false → s.headerDue c = true →
      step s = exec (decodeHeader ch.shift.lowByte) { s with lnk := c, turns := s.turns.tail, tick := s.tick + 1 })
    ∧ ∀ (s : State) (t : Turn) (more : List Turn), s.turns = t :: more →
      s.nextTurn = some t ∧ step s = agentStep t { s with turns := more, tick := s.tick + 1 }

/-- R78, R79, R198, R246 (the schedule and the free choice are the model's, log 1): without a schedule what comes next
is whatever the free choice names of these: a step of an agent that has one, or, unless SEQ runs, no step at all. So
nothing ever forces a link agent's step; where no agent has one the machine waits; and waiting only counts the step.
HOST has a step when its next act is a reset, or a command in IDLE (that HOST's acts are one queue, of which only the
first can take place, is the model's choice, log 28). -/
def Obligations.ScheduleChoosesAReadyAgent : Prop :=
  ∀ s : State, s.turns = [] →
    (∀ x, x ∈ s.choices ↔ (x = none ∧ s.mode ≠ .run) ∨ ∃ t, t ∈ s.readyTurns ∧ x = some t)
      ∧ s.choices[Config.pick s.tick % s.choices.length]? = some s.nextTurn
      ∧ (∀ c, some (.link c) ∈ s.choices → ∃ x, x ∈ s.choices ∧ x ≠ some (.link c))
      ∧ (s.readyTurns = [] → s.nextTurn = none)
      ∧ (s.nextTurn = none → s.mode ≠ .run ∧ step s = .next { s with tick := s.tick + 1 })
      ∧ (s.mode = .run → .seq ∈ s.readyTurns)
      ∧ (.host ∈ s.readyTurns ↔ ∃ a, s.inbox.head? = some a ∧ s.actAllowed a = true)
      ∧ ∀ c, .link c ∈ s.readyTurns ↔ s.linkReady c = true

/-- R37, R90, R224: outside IDLE the port takes no command: HOST's turn leaves the command where it is, and the state
but for the turn spent. That it then stands before every later act of HOST, a reset too, is the model's choice, log 28. -/
def Obligations.CommandWaitsOutsideIdle : Prop :=
  ∀ (s : State) (d : Descriptor) (rest : List HostAct), s.nextTurn = some .host → s.inbox = .command d :: rest →
    s.mode ≠ .idle → step s = .next { s with turns := s.turns.tail, tick := s.tick + 1 }

/-! Reset -/

/-- R241 to R243, R246: the machine right after reset holds the values the spec gives; its parameters are legal (the
numbers are the model's, log 2), and the invariants stated below hold (the memories' form is the model's, log 9, 12,
13). -/
def Obligations.ResetStateHoldsSpecValues : Prop :=
  State.reset.ResetValues ∧ State.reset.params.legal = true
    ∧ State.reset.positionOk = true ∧ State.reset.listsOk = true ∧ State.reset.flagsOk = true
    ∧ State.reset.selectOk = true ∧ State.reset.faultRegsOk = true ∧ State.reset.entryOk = true

/-- R40, R240 to R243, R245, R246: HOST's reset takes one step in every state, and leaves every item the spec gives a reset
value for at that value; the devices keep theirs (R245). That HOST's memory, the platform's bytes, the parameters and
HOST's further acts are kept too is the model's choice, log 4; that a reset acts when it is the first of HOST's acts, log
28. -/
def Obligations.HostResetTakesOneStep : Prop :=
  ∀ (s : State) (rest : List HostAct), s.nextTurn = some .host → s.inbox = .reset :: rest →
    ∃ t, step s = .next t ∧ t.ResetValues ∧ t.devices = s.devices ∧ t.mem = s.mem ∧ t.params = s.params
      ∧ t.inbox = rest

/-! Registers -/

/-- R61, R63: with legal parameters the raw addresses `SPI_BASE(c) + off` are the four registers of channel `c`, each
its own, and no other address is a register. -/
def Obligations.RegisterMapIsExact : Prop :=
  ∀ (p : Params), p.legal = true → ∀ (a : Word) (c : Nat) (r : Reg),
    locate p a = some (c, r) ↔ ∃ base, p.bases[c]? = some base ∧ a = base + r.offset

/-- R67, R68, R70, R71, R144: line 1 of an SPI_REGREAD at a register's address puts the register's 16 bits into RESULT,
the upper half 0, with the register's side effect: DATA clears RXNE and arms OVR clearing if OVR = 1, STATUS clears an
armed OVR and still shows it, the control registers have none. Line 2, at whatever address, returns. -/
def Obligations.RawReadOfRegister : Prop :=
  ∀ (s : State) (f : Frame) (rest : List Frame) (a : Word), s.running f rest → f.op = .spiRegRead a →
    (∀ (c : Nat) (ch : Channel) (r : Reg) (base : Word), f.line = 1 → s.params.legal = true →
        s.params.bases[c]? = some base → a = base + r.offset → s.chans[c]? = some ch →
        exec (.spiRegRead a) s = .next
          { s with
            pc := { f with line := 2, sub := 0 } :: rest
            result := (match r with
              | .ctrl1 => ch.ctrl1
              | .ctrl2 => ch.ctrl2
              | .status =>
                bitHalf ch.rxne ||| (bitHalf ch.txe <<< 1) ||| (bitHalf ch.ovr <<< 6) ||| (bitHalf ch.bsy <<< 7)
              | .data => ch.rxbuf).setWidth 32
            chans := s.chans.set c (match r with
              | .ctrl1 => ch
              | .ctrl2 => ch
              | .status => { ch with ovr := ch.ovr && !ch.ovrArm, ovrArm := false }
              | .data => { ch with rxne := false, ovrArm := ch.ovrArm || ch.ovr }) })
      ∧ (f.line = 2 → ∃ t, exec (.spiRegRead a) s = .next t ∧ t.returnedTo rest
        ∧ t = { s with mode := t.mode, pc := t.pc })

/-- R66, R69, R70, R71, R143: line 1 of an SPI_REGWRITE at a register's address stores the low 16 bits in a control
register, changes nothing at STATUS, and puts them into TXBUF at DATA, with TXE cleared; a write of DATA while TXE = 0
is refused. Line 2, at whatever address, returns. -/
def Obligations.RawWriteOfRegister : Prop :=
  ∀ (s : State) (f : Frame) (rest : List Frame) (a v : Word), s.running f rest → f.op = .spiRegWrite a v →
    (∀ (c : Nat) (ch : Channel) (r : Reg) (base : Word), f.line = 1 → s.params.legal = true →
        s.params.bases[c]? = some base → a = base + r.offset → s.chans[c]? = some ch →
        exec (.spiRegWrite a v) s =
          if r = .data ∧ ch.txe = false then .refused .dataWriteFull
          else .next
            { s with
              pc := { f with line := 2, sub := 0 } :: rest
              chans := s.chans.set c (match r with
                | .ctrl1 => { ch with ctrl1 := v.setWidth 16 }
                | .ctrl2 => { ch with ctrl2 := v.setWidth 16 }
                | .status => ch
                | .data => { ch with txbuf := v.setWidth 16, txe := false }) })
      ∧ (f.line = 2 → ∃ t, exec (.spiRegWrite a v) s = .next t ∧ t.returnedTo rest
        ∧ t = { s with mode := t.mode, pc := t.pc })

/-- R63, R75, U2 (platform memory and its byte order are the model's choice, log 9): at an aligned address outside the
map a platform memory, where there is one, takes the access: a read answers the word of its four bytes, a write changes
those four bytes, and reading them back gives what was written. -/
def Obligations.RawAccessToPlatformMemory : Prop :=
  ∀ (s : State) (f : Frame) (rest : List Frame) (a v : Word), s.params.platform = true → a.toNat % 4 = 0 →
    locate s.params a = none → s.mem.wf = true →
    (s.running f rest → f.atLine (.spiRegRead a) 1 →
        ∃ w, exec (.spiRegRead a) s = .next { s with pc := { f with line := 2, sub := 0 } :: rest, result := w }
          ∧ ∀ k, k < 4 → s.mem.byte (a.toNat + k) = w.extractLsb' (8 * k) 8)
      ∧ (s.running f rest → f.atLine (.spiRegWrite a v) 1 →
        ∃ m, exec (.spiRegWrite a v) s = .next { s with pc := { f with line := 2, sub := 0 } :: rest, mem := m }
          ∧ m.wf = true ∧ m.buffers = s.mem.buffers ∧ m.tables = s.mem.tables
          ∧ (∀ k, k < 4 → m.byte (a.toNat + k) = v.extractLsb' (8 * k) 8)
          ∧ ∀ b, (b < a.toNat ∨ a.toNat + 4 ≤ b) → m.byte b = s.mem.byte b)

/-- R145: what SPI_REGWRITE stores in CTRL1 or CTRL2 a later SPI_REGREAD of that address returns on its 16 bits,
whatever else has happened, so long as the register has not been written in between. -/
def Obligations.ControlRegisterRoundTrip : Prop :=
  ∀ (s t u : State) (f g : Frame) (rest more : List Frame) (a v : Word) (c : Nat) (r : Reg) (base : Word)
    (ch ch' : Channel),
    s.running f rest → f.atLine (.spiRegWrite a v) 1 → s.params.legal = true → s.params.bases[c]? = some base →
    (r = .ctrl1 ∨ r = .ctrl2) → a = base + r.offset → exec (.spiRegWrite a v) s = .next t →
    u.running g more → g.atLine (.spiRegRead a) 1 → u.params = t.params →
    t.chans[c]? = some ch → u.chans[c]? = some ch' → ch'.ctrl1 = ch.ctrl1 → ch'.ctrl2 = ch.ctrl2 →
    ∃ w, exec (.spiRegRead a) u = .next w ∧ w.result = (v.setWidth 16 : Half).setWidth 32

/-- R27, R63, R66 to R71, R143, R144: what the two raw accesses leave unchanged. Only the channel the address names
changes, and of it neither the receive buffer nor the shifter nor BSY; SPI_REGREAD writes no memory, SPI_REGWRITE no
byte of the platform's outside its four and never RESULT. -/
def Obligations.RawAccessFrame : Prop :=
  ∀ (s t : State) (a v : Word) (i : Instr), (i = .spiRegRead a ∨ i = .spiRegWrite a v) → exec i s = .next t →
    SameWorld s t ∧ t.pins = s.pins ∧ t.hdr = s.hdr ∧ t.inits = s.inits ∧ t.trace = s.trace ∧ t.devices = s.devices
      ∧ t.lnk = s.lnk ∧ t.polls = s.polls
      ∧ (t.faultCode = s.faultCode ∧ t.faultInfo = s.faultInfo ∧ t.latches = s.latches)
      ∧ (i = .spiRegWrite a v → t.result = s.result)
      ∧ (i = .spiRegRead a → t.mem = s.mem)
      ∧ t.mem.buffers = s.mem.buffers ∧ t.mem.tables = s.mem.tables
      ∧ (∀ b, (b < a.toNat ∨ a.toNat + 4 ≤ b) → t.mem.byte b = s.mem.byte b)
      ∧ t.chans.length = s.chans.length
      ∧ ∀ (c : Nat) (ch : Channel), s.chans[c]? = some ch → ∃ ch', t.chans[c]? = some ch'
        ∧ ch'.rxbuf = ch.rxbuf ∧ ch'.shift = ch.shift ∧ ch'.shiftActive = ch.shiftActive ∧ ch'.bsy = ch.bsy
        ∧ ((∀ r, locate s.params a ≠ some (c, r)) → ch' = ch)
        ∧ (i = .spiRegRead a → ch'.ctrl1 = ch.ctrl1 ∧ ch'.ctrl2 = ch.ctrl2 ∧ ch'.txbuf = ch.txbuf ∧ ch'.txe = ch.txe)

/-- R64, R65, R259: the cells and records HOST gives are what BufRead and CfgRead return, and those under every other
reference stay. That HOST gives a buffer or a table in one step, outside RUN only, is the model's choice, log 21; that
a buffer's capacity is what HOST gave and that buffers stand apart from one another, log 12; the same of tables, log 13. -/
def Obligations.HostGivesBuffersAndTables : Prop :=
  ∀ (s : State) (ref : Word), s.mode ≠ .run → s.mem.wf = true →
    (∀ (cells : List Half) (rest : List HostAct), s.nextTurn = some .host → s.inbox = .buffer ref cells :: rest →
        ∃ t, step s = .next t ∧ t.inbox = rest ∧ t.mem.wf = true
          ∧ (ref ≠ s.params.hdrRef → ∀ k, t.bufRead ref k = cells[k]?)
          ∧ (∀ ref' k, ref' ≠ ref → t.bufRead ref' k = s.bufRead ref' k)
          ∧ ∀ ref' k, t.cfgRead ref' k = s.cfgRead ref' k)
      ∧ ∀ (records : List CfgRecord) (rest : List HostAct), s.nextTurn = some .host →
        s.inbox = .table ref records :: rest →
        ∃ t, step s = .next t ∧ t.inbox = rest ∧ t.mem.wf = true
          ∧ (∀ k, t.cfgRead ref k = records[k]?)
          ∧ (∀ ref' k, ref' ≠ ref → t.cfgRead ref' k = s.cfgRead ref' k)
          ∧ ∀ ref' k, t.bufRead ref' k = s.bufRead ref' k

/-! SPI_INIT -/

/-- R133 lines 1, 2, 4 and 13, R136: the loop is entered with index 0, or passed over when there is no record (the index
is 0 then too by the model's choice, log 27); record `i` of the table is taken; the operation returns to where it was
called from. -/
def Obligations.InitTakesEachRecord : Prop :=
  ∀ (s : State) (f : Frame) (rest : List Frame) (count : Half) (table : Word), s.running f rest →
    f.op = .spiInit count table →
    (f.line = 1 → exec f.op s = .next
        { s with pc := { f with line := if count = 0#16 then 13 else 2, sub := 0, idx := 0#16 } :: rest })
      ∧ (∀ cfg, f.line = 2 → table ≠ 0#32 → s.cfgRead table f.idx.toNat = some cfg → exec f.op s = .next
        { s with pc := { f with line := 3, sub := 0, cfg := cfg } :: rest })
      ∧ (f.line = 4 → exec f.op s = .next { s with pc := { f with line := 5, sub := 0 } :: rest })
      ∧ (f.line = 13 → ∃ t, exec f.op s = .next t ∧ t.returnedTo rest ∧ t = { s with mode := t.mode, pc := t.pc })

/-- R9, R82, R133 lines 5 to 12: each RegField is two steps, a read of the register and a write that puts the value
into the field's bits and keeps the others; then the next RegField of the line, the next line, and after line 12 the
next record or line 13. -/
def Obligations.InitProgramsEachField : Prop :=
  ∀ (s : State) (f : Frame) (rest : List Frame) (count : Half) (table : Word) (ch : Channel)
    (fields : List (Field × Half)) (k : Nat) (fld : Field) (v : Half), s.running f rest →
    f.op = .spiInit count table → 5 ≤ f.line → f.line ≤ 12 → s.chans[f.cfg.channel.toNat]? = some ch →
    initFields f.line f.cfg = some fields → fields[k]? = some (fld, v) →
    (f.sub = 2 * k → exec f.op s = .next
        { s with pc := { f with sub := 2 * k + 1, tmp := ch.readValue fld.reg } :: rest })
      ∧ (f.sub = 2 * k + 1 → ∃ g ch', exec f.op s = .next
          { s with chans := s.chans.set f.cfg.channel.toNat ch', pc := g :: rest }
        ∧ g.op = f.op ∧ g.cfg = f.cfg
        ∧ (g.line, g.sub, g.idx) = (if k + 1 < fields.length then (f.line, 2 * (k + 1), f.idx)
            else if f.line < 12 then (f.line + 1, 0, f.idx)
            else if f.idx.toNat + 1 < count.toNat then (2, 0, f.idx + 1#16) else (13, 0, f.idx))
        ∧ ch' = (if fld = .ssoe then { ch with ctrl2 := (f.tmp &&& ~~~0x0004#16) ||| (v <<< 2) }
            else { ch with ctrl1 := (f.tmp &&& ~~~fld.mask) ||| (v <<< fld.lo) }))

/-- R214, R221: at the line of an enumerant whose code is outside its legal set SPI_INIT raises EnumRange with that
code and changes nothing else, before any field of that line is programmed; with a legal code the line runs on; and no
other operation raises EnumRange. That the fault keeps the loop index latches too is the model's reading, log 26. -/
def Obligations.InitRejectsEnumOutOfRange : Prop :=
  (∀ (s : State) (f : Frame) (rest : List Frame) (count : Half) (table : Word) (code : Byte) (n : Nat),
      s.running f rest → f.op = .spiInit count table → enumerant f.line f.cfg = some (code, n) →
      (n ≤ code.toNat → exec f.op s = .next (s.faulted 2#8 (code.setWidth 32)))
        ∧ (code.toNat < n → ∀ t, exec f.op s = .next t → t.mode = .run))
    ∧ ∀ s t : State, step s = .next t → s.mode ≠ .fault → t.mode = .fault → t.faultCode = 2#8 →
      ∃ f count table code n, s.seqOn f ∧ f.op = .spiInit count table ∧ enumerant f.line f.cfg = some (code, n)

/-- R134: from line 5 of a legal record, whatever steps of the link agents come between SEQ's, SPI_INIT leaves the
record's channel with the closed form in its two control registers, every other channel's control registers as they
were, and stands at the next record or past the loop. -/
def Obligations.InitRecordClosedForm : Prop :=
  ∀ (s : State) (f : Frame) (rest : List Frame) (count : Half) (table : Word) (ts more : List Turn),
    s.running f rest → f.op = .spiInit count table → f.line = 5 → f.sub = 0 → recordLegal f.cfg = true →
    (s.chans[f.cfg.channel.toNat]?).isSome → s.turns = ts ++ more → .host ∉ ts → ts.count .seq = initSteps f.cfg →
    ∃ (t : State) (g : Frame), Host.Core.run core ts.length s = .next t ∧ t.mode = .run ∧ t.pc = g :: rest
      ∧ g.op = f.op ∧ g.sub = 0
      ∧ (g.line, g.idx) = (if f.idx.toNat + 1 < count.toNat then (2, f.idx + 1#16) else (13, f.idx))
      ∧ t.pins = s.pins ∧ t.mem = s.mem ∧ t.chans.length = s.chans.length
      ∧ ∀ (c : Nat) (ch : Channel), s.chans[c]? = some ch → ∃ ch', t.chans[c]? = some ch'
        ∧ ch'.ctrl1 = (if c = f.cfg.channel.toNat then newCtrl1 ch.ctrl1 f.cfg else ch.ctrl1)
        ∧ ch'.ctrl2 = (if c = f.cfg.channel.toNat then newCtrl2 ch.ctrl2 f.cfg else ch.ctrl2)

/-- R134, R135, R136: SPI_INIT over a table of legal records, from its line 1 and whatever steps of the link agents come
between SEQ's, returns with the control registers of every channel as the records in their order program them; and run
again with the same table from a state that has those control registers, it leaves them as they are, however the records
differ among themselves. -/
def Obligations.InitTableIdempotent : Prop :=
  ∀ (s u : State) (f g : Frame) (rest rest' : List Frame) (count : Half) (table : Word) (records : List CfgRecord)
    (ts us more more' : List Turn), s.initRun f rest count table records ts more →
    u.initRun g rest' count table records us more' →
    ∃ t v : State, Host.Core.run core ts.length s = .next t ∧ t.returnedTo rest
      ∧ t.controls = records.foldl programRecord s.controls
      ∧ Host.Core.run core us.length u = .next v ∧ v.returnedTo rest'
      ∧ (u.controls = t.controls → v.controls = t.controls)

/-- R25: no step but SEQ's of a raw register write and HOST's reset changes a control bit that the configuration does
not cover. -/
def Obligations.UncoveredBitsChangeOnlyByRawWriteOrReset : Prop :=
  ∀ s t : State, s.positionOk = true → step s = .next t →
    (∀ (c : Nat) (ch : Channel), s.chans[c]? = some ch → ∃ ch', t.chans[c]? = some ch' ∧ sameUncovered ch ch')
      ∨ s.hostActs .reset ∨ ∃ f a v, s.seqOn f ∧ f.op = .spiRegWrite a v

/-- R134, R136: what a step of SPI_INIT leaves unchanged: of the record's channel all but the two control registers,
the other channels whole, pins, HDR, RESULT, sessions, TRACE, devices, memory and POLLS; the fault registers unless it
raises. -/
def Obligations.InitFrame : Prop :=
  ∀ (s t : State) (count : Half) (table : Word), exec (.spiInit count table) s = .next t →
    SameWorld s t ∧ SameProtocol s t ∧ t.mem = s.mem ∧ t.polls = s.polls
      ∧ ((t.faultCode = s.faultCode ∧ t.faultInfo = s.faultInfo ∧ t.latches = s.latches)
        ∨ ∃ code info, t = s.faulted code info)
      ∧ t.chans.length = s.chans.length
      ∧ ∀ (c : Nat) (ch : Channel), s.chans[c]? = some ch → ∃ ch', t.chans[c]? = some ch'
        ∧ { ch' with ctrl1 := ch.ctrl1, ctrl2 := ch.ctrl2 } = ch
        ∧ ((∀ f, s.pc.head? = some f → f.cfg.channel.toNat ≠ c) → ch' = ch)

/-! SPI_TRANSFER and SPI_RECEIVE -/

/-- R211, R213, R215, R216, R218, R221: an assertion of the pseudocode, of whatever operation, moves to the next line
and touches nothing when its condition holds, and raises its fault and touches nothing else when it does not. That the
fault keeps the loop index latches too is the model's reading, log 26. -/
def Obligations.AssertionsOfThePseudocode : Prop :=
  ∀ (s : State) (f : Frame) (rest : List Frame) (cond : Bool) (code : Byte) (info : Word), s.running f rest →
    contract s f.op f.line f.cfg = some (cond, code, info) →
    exec f.op s = if cond then .next { s with pc := { f with line := f.line + 1, sub := 0 } :: rest }
      else .next (s.faulted code info)

/-- R131, R217, R222: a poll reads STATUS with its side effect. The awaited value moves the position on and POLLS to 0;
otherwise the position stays, and with a finite bound the poll is counted and the one that reaches the bound raises
PeripheralTimeout with the channel. Three clauses are the model's readings: that nothing is counted without a bound
(log 14, from R131's text against its pseudocode); that the raising poll has none of its other effects, so that POLLS, OVR
and OVR_ARM stay (log 14, from R222); and that the fault keeps the loop index latches too (log 26, from R222). -/
def Obligations.PollsOfThePseudocode : Prop :=
  ∀ (s : State) (f : Frame) (rest : List Frame) (c : Byte) (fl : Flag) (v : Bool) (ch : Channel), s.running f rest →
    waits f.op f.line = some (c, fl, v) → s.chans[c.toNat]? = some ch →
    ∃ ch', ch' = { ch with ovr := ch.ovr && !ch.ovrArm, ovrArm := false } ∧
      exec f.op s =
        if ch.flag fl = v then .next
          { s with
            chans := s.chans.set c.toNat ch'
            pc := { f with line := f.line + 1, sub := 0 } :: rest
            polls := 0 }
        else match s.params.waitBound with
          | none => .next { s with chans := s.chans.set c.toNat ch' }
          | some bound =>
            if s.polls + 1 < bound then .next { s with chans := s.chans.set c.toNat ch', polls := s.polls + 1 }
            else .next (s.faulted 7#8 (c.setWidth 32))

/-- R139, R191, R226, R254: with `WAIT_BOUND = inf` a wait on a channel that is not enabled, whose flag has not the
awaited value, hangs: after any number of steps, of whatever agents, so long as HOST does not reset, SEQ stands where
it stood, still in RUN, with no fault recorded. -/
def Obligations.DisabledChannelHangs : Prop :=
  ∀ (s : State) (f : Frame) (rest : List Frame) (c : Byte) (fl : Flag) (v : Bool) (ch : Channel), s.running f rest →
    waits f.op f.line = some (c, fl, v) → s.chans[c.toNat]? = some ch → ch.enable = false → ch.flag fl ≠ v →
    s.params.waitBound = none → .reset ∉ s.inbox →
    ∀ n, ∃ t, Host.Core.run core n s = .next t ∧ t.mode = .run ∧ t.pc = s.pc ∧ t.faultCode = s.faultCode
      ∧ t.inbox = s.inbox ∧ t.pins = s.pins

/-- R138 lines 4, 6, 7, 10, 11 and 12: the loop head, which a configuration R206 leaves open passes too where a step
relation is supplied for it; the cell, the write of DATA, the two dummy reads, the return. -/
def Obligations.TransferLines : Prop :=
  ∀ (s : State) (f : Frame) (rest : List Frame) (ch : Byte) (count : Half) (buf : Word) (c : Channel),
    s.running f rest → f.op = .spiTransfer ch count buf → s.chans[ch.toNat]? = some c →
    (f.line = 4 → (c.linkOpen = false ∨ s.params.linkOther = .supplied) → exec f.op s = .next
        { s with pc := { f with line := 5, sub := 0, idx := 0#16 } :: rest })
      ∧ (∀ e, f.line = 6 → s.bufRead buf f.idx.toNat = some e → exec f.op s = .next
        { s with pc := { f with line := 7, sub := 0, tmp := e } :: rest })
      ∧ (f.line = 7 → c.txe = true → exec f.op s = .next
        { s with
          chans := s.chans.set ch.toNat { c with txbuf := f.tmp, txe := false }
          pc := (if f.idx.toNat + 1 < count.toNat then { f with line := 5, sub := 0, idx := f.idx + 1#16 }
            else { f with line := 8, sub := 0 }) :: rest })
      ∧ (f.line = 10 → exec f.op s = .next
        { s with
          chans := s.chans.set ch.toNat { c with rxne := false, ovrArm := c.ovrArm || c.ovr }
          pc := { f with line := 11, sub := 0 } :: rest })
      ∧ (f.line = 11 → exec f.op s = .next
        { s with
          chans := s.chans.set ch.toNat { c with ovr := c.ovr && !c.ovrArm, ovrArm := false }
          pc := { f with line := 12, sub := 0 } :: rest })
      ∧ (f.line = 12 → ∃ t, exec f.op s = .next t ∧ t.returnedTo rest ∧ t = { s with mode := t.mode, pc := t.pc })

/-- R141 lines 4, 5, 7, 8 and 9: the loop head, which a configuration R206 leaves open passes too where a step relation
is supplied for it; the dummy, the read of DATA, the cell, the return. The cell a word goes to is BUF's at the loop index; every other cell, of this and of every other buffer, stays. -/
def Obligations.ReceiveLines : Prop :=
  ∀ (s : State) (f : Frame) (rest : List Frame) (ch : Byte) (count : Half) (buf : Word) (c : Channel),
    s.running f rest → f.op = .spiReceive ch count buf → s.chans[ch.toNat]? = some c →
    (f.line = 4 → (c.linkOpen = false ∨ s.params.linkOther = .supplied) → exec f.op s = .next
        { s with pc := { f with line := 5, sub := 0, idx := 0#16 } :: rest })
      ∧ (f.line = 5 → c.txe = true → exec f.op s = .next
        { s with
          chans := s.chans.set ch.toNat { c with txbuf := 0x0000#16, txe := false }
          pc := { f with line := 6, sub := 0 } :: rest })
      ∧ (f.line = 7 → exec f.op s = .next
        { s with
          chans := s.chans.set ch.toNat { c with rxne := false, ovrArm := c.ovrArm || c.ovr }
          pc := { f with line := 8, sub := 0, tmp := c.rxbuf } :: rest })
      ∧ (f.line = 8 → (s.bufRead buf f.idx.toNat).isSome → ∃ t, exec f.op s = .next t
        ∧ t = { s with mem := t.mem, hdr := t.hdr, pc := t.pc }
        ∧ t.pc = (if f.idx.toNat + 1 < count.toNat then { f with line := 5, sub := 0, idx := f.idx + 1#16 }
            else { f with line := 9, sub := 0 }) :: rest
        ∧ t.bufRead buf f.idx.toNat = some f.tmp
        ∧ (∀ ref k, (ref ≠ buf ∨ k ≠ f.idx.toNat) → t.bufRead ref k = s.bufRead ref k)
        ∧ t.mem.tables = s.mem.tables ∧ t.mem.plat = s.mem.plat)
      ∧ (f.line = 9 → ∃ t, exec f.op s = .next t ∧ t.returnedTo rest ∧ t = { s with mode := t.mode, pc := t.pc })

/-- 93 section 1 (U2 to U6, U13), R63, R64, R66, R75, R136, R161, R206: the cases to which the spec gives no meaning are
refused, each by its name, where the line that needs the missing thing runs. The places are the model's: an enabled open
channel at the loop head, log 8; a write of DATA while TXE = 0 at the write, log 10; an address above 0x3F at line 1,
log 11; a cell beyond what HOST gave at the cell, log 12; and that a record beyond those HOST gave is refused at all, at
the read, log 13. -/
def Obligations.CasesWithoutMeaningAreRefused : Prop :=
  ∀ (s : State) (f : Frame) (rest : List Frame), s.running f rest →
    (∀ a v, (f.op = .spiRegRead a ∨ f.op = .spiRegWrite a v) → f.line = 1 →
        (a.toNat % 4 ≠ 0 → exec f.op s = .refused .misaligned)
        ∧ (a.toNat % 4 = 0 → locate s.params a = none → s.params.platform = false →
          exec f.op s = .refused .outsideMap))
      ∧ (∀ ch port pin addr value, f.op = .accWrite ch port pin addr value → f.line = 1 → 0x3F < addr.toNat →
        exec f.op s = .refused .addrTooLarge)
      ∧ (∀ ch port pin addr count buf, f.op = .accRead ch port pin addr count buf → f.line = 1 → 0x3F < addr.toNat →
        exec f.op s = .refused .addrTooLarge)
      ∧ (∀ ch count buf, f.op = .spiTransfer ch count buf → f.line = 6 → s.bufRead buf f.idx.toNat = none →
        exec f.op s = .refused .beyondCapacity)
      ∧ (∀ ch count buf, f.op = .spiReceive ch count buf → f.line = 8 → s.bufRead buf f.idx.toNat = none →
        exec f.op s = .refused .beyondCapacity)
      ∧ (∀ ch count buf c, f.op = .spiReceive ch count buf → f.line = 5 → s.chans[ch.toNat]? = some c →
        c.txe = false → exec f.op s = .refused .dataWriteFull)
      ∧ (∀ ch count buf c, (f.op = .spiTransfer ch count buf ∨ f.op = .spiReceive ch count buf) → f.line = 4 →
        s.chans[ch.toNat]? = some c → c.linkOpen = true → s.params.linkOther = .refuse →
        exec f.op s = .refused .linkOther)
      ∧ (∀ count table, f.op = .spiInit count table → f.line = 2 →
        (table = 0#32 → exec f.op s = .refused .nullTable)
        ∧ (table ≠ 0#32 → s.cfgRead table f.idx.toNat = none → exec f.op s = .refused .beyondTable))

/-- R130, R137 to R142, R146: what a step of SPI_TRANSFER or SPI_RECEIVE leaves unchanged: chip-select and every other
pin, RESULT, the sessions, TRACE, devices; every channel but its own, and of its own the control registers, BSY, RXBUF
and the shifter. SPI_TRANSFER writes no memory; SPI_RECEIVE no cell but BUF's at its loop index. -/
def Obligations.TransferReceiveFrame : Prop :=
  ∀ (s t : State) (ch : Byte) (count : Half) (buf : Word) (i : Instr),
    (i = .spiTransfer ch count buf ∨ i = .spiReceive ch count buf) → exec i s = .next t →
    SameWorld s t ∧ t.pins = s.pins ∧ t.result = s.result ∧ t.inits = s.inits ∧ t.trace = s.trace
      ∧ t.devices = s.devices ∧ t.lnk = s.lnk ∧ t.mem.tables = s.mem.tables ∧ t.mem.plat = s.mem.plat
      ∧ (i = .spiTransfer ch count buf → t.mem = s.mem ∧ t.hdr = s.hdr)
      ∧ (∀ ref k, (ref ≠ buf ∨ ∀ f, s.pc.head? = some f → k ≠ f.idx.toNat) → t.bufRead ref k = s.bufRead ref k)
      ∧ ((t.faultCode = s.faultCode ∧ t.faultInfo = s.faultInfo ∧ t.latches = s.latches)
        ∨ ∃ code info, t = s.faulted code info)
      ∧ t.chans.length = s.chans.length
      ∧ ∀ (c : Nat) (cc : Channel), s.chans[c]? = some cc → ∃ cc', t.chans[c]? = some cc'
        ∧ (c ≠ ch.toNat → cc' = cc) ∧ cc'.ctrl1 = cc.ctrl1 ∧ cc'.ctrl2 = cc.ctrl2 ∧ cc'.bsy = cc.bsy
        ∧ cc'.rxbuf = cc.rxbuf ∧ cc'.shift = cc.shift ∧ cc'.shiftActive = cc.shiftActive

/-- R139, on the schedule in which the link takes each step as soon as it may: SPI_TRANSFER of `COUNT` cells on a
full-duplex master entered with TXE = 1 and an idle shifter returns; the TRACE gains one frame for each cell, in index
order, masked to the frame width; STATUS ends as 0x0002 whatever it was; RXBUF holds the first word received, or its
old content if RXNE was 1; pins, memory, HDR and the control registers stay. -/
def Obligations.TransferRunsToReturn : Prop :=
  ∀ (s : State) (f : Frame) (rest : List Frame) (ch : Byte) (count : Half) (buf : Word) (c : Channel)
    (cells : List Half) (more : List Turn), s.running f rest → f.atLine (.spiTransfer ch count buf) 1 →
    ch.toNat < s.params.nCh → count ≠ 0#16 → buf ≠ 0#32 → s.chans[ch.toNat]? = some c → c.ready = true →
    s.firstCells buf count.toNat cells → s.turns = transferTurns ch.toNat count.toNat ++ more →
    ∃ (t : State) (received : List Half) (c' : Channel),
      Host.Core.run core (transferTurns ch.toNat count.toNat).length s = .next t ∧ t.returnedTo rest
        ∧ received.length = count.toNat
        ∧ t.trace = s.trace ++ framesOf ch.toNat (cells.map (· &&& c.mask)) received
        ∧ t.chans = s.chans.set ch.toNat c' ∧ c'.ctrl1 = c.ctrl1 ∧ c'.ctrl2 = c.ctrl2
        ∧ c'.statusWord = 0x0002#16 ∧ c'.shiftActive = false ∧ c'.ovrArm = false
        ∧ some c'.rxbuf = (if c.rxne then some c.rxbuf else received[0]?)
        ∧ t.pins = s.pins ∧ t.mem = s.mem ∧ t.hdr = s.hdr ∧ t.result = s.result ∧ t.inits = s.inits
        ∧ t.turns = more

/-- R142, on the schedule in which the link takes each step as soon as it may: SPI_RECEIVE of `COUNT` words on an idle
full-duplex master returns; the TRACE gains `COUNT` frames that send 0; cell `i` holds the word received in frame `i`,
every other cell what it held; STATUS ends as 0x0002. -/
def Obligations.ReceiveRunsToReturn : Prop :=
  ∀ (s : State) (f : Frame) (rest : List Frame) (ch : Byte) (count : Half) (buf : Word) (c : Channel)
    (more : List Turn), s.running f rest → f.atLine (.spiReceive ch count buf) 1 →
    ch.toNat < s.params.nCh → count ≠ 0#16 → buf ≠ 0#32 → s.chans[ch.toNat]? = some c → c.ready = true →
    c.rxne = false → c.ovr = false → s.hasCells buf count.toNat →
    s.turns = receiveTurns ch.toNat count.toNat ++ more →
    ∃ (t : State) (received : List Half) (c' : Channel),
      Host.Core.run core (receiveTurns ch.toNat count.toNat).length s = .next t ∧ t.returnedTo rest
        ∧ received.length = count.toNat
        ∧ t.trace = s.trace ++ framesOf ch.toNat (List.replicate count.toNat 0x0000#16) received
        ∧ (∀ k, k < count.toNat → t.bufRead buf k = received[k]?)
        ∧ (∀ ref k, (ref ≠ buf ∨ count.toNat ≤ k) → t.bufRead ref k = s.bufRead ref k)
        ∧ t.chans = s.chans.set ch.toNat c' ∧ c'.ctrl1 = c.ctrl1 ∧ c'.ctrl2 = c.ctrl2
        ∧ c'.statusWord = 0x0002#16 ∧ c'.shiftActive = false
        ∧ t.pins = s.pins ∧ t.result = s.result ∧ t.inits = s.inits ∧ t.turns = more

/-- R139, R146, R203, R204, for every interleaving: whatever steps the agents take between, when an SPI_TRANSFER entered
with TXE = 1 and an idle shifter returns without a fault, its channel has had exactly `COUNT` more frames, that sent the
buffer's cells in index order, each masked; its flags stand at 0x0002; RXBUF holds the first of the words received or,
entered with RXNE = 1, its old content; and no buffer has changed. -/
def Obligations.TransferInEveryInterleaving : Prop :=
  ∀ (s t : State) (n : Nat) (f : Frame) (rest : List Frame) (ch : Byte) (count : Half) (buf : Word) (c : Channel)
    (cells : List Half), s.running f rest → f.atLine (.spiTransfer ch count buf) 1 →
    s.chans[ch.toNat]? = some c → c.ready = true → s.firstCells buf count.toNat cells → .reset ∉ s.inbox →
    firstReturn s t n rest.length → t.safe →
    t.returnedTo rest ∧ ∃ (received : List Half) (c' : Channel), received.length = count.toNat
      ∧ framesOn ch.toNat t.trace = framesOn ch.toNat s.trace ++ (cells.map (· &&& c.mask)).zip received
      ∧ t.chans[ch.toNat]? = some c' ∧ c'.statusWord = 0x0002#16 ∧ c'.shiftActive = false ∧ c'.ovrArm = false
      ∧ some c'.rxbuf = (if c.rxne then some c.rxbuf else received[0]?)
      ∧ ∀ ref k, t.bufRead ref k = s.bufRead ref k

/-- R142, R146, R205, for every interleaving: when an SPI_RECEIVE entered on an idle channel returns without a fault,
its channel has had exactly `COUNT` more frames, each sending 0, cell `i` holds the word received in the i-th of them,
no other cell has changed, and the flags stand at 0x0002. -/
def Obligations.ReceiveInEveryInterleaving : Prop :=
  ∀ (s t : State) (n : Nat) (f : Frame) (rest : List Frame) (ch : Byte) (count : Half) (buf : Word) (c : Channel),
    s.running f rest → f.atLine (.spiReceive ch count buf) 1 → s.chans[ch.toNat]? = some c → c.ready = true →
    c.rxne = false → c.ovr = false → .reset ∉ s.inbox → firstReturn s t n rest.length → t.safe →
    t.returnedTo rest ∧ ∃ (received : List Half) (c' : Channel), received.length = count.toNat
      ∧ framesOn ch.toNat t.trace
          = framesOn ch.toNat s.trace ++ (List.replicate count.toNat 0x0000#16).zip received
      ∧ (∀ k, k < count.toNat → t.bufRead buf k = received[k]?)
      ∧ (∀ ref k, (ref ≠ buf ∨ count.toNat ≤ k) → t.bufRead ref k = s.bufRead ref k)
      ∧ t.chans[ch.toNat]? = some c' ∧ c'.statusWord = 0x0002#16 ∧ c'.shiftActive = false

/-! The accelerometer operations -/

/-- R162, R163, R199: past its two assertions CS_ASSERT drives its pin low, CS_DEASSERT high, and appends the event
whether or not the level changes; a device on a line driven low waits for a header; the operation then returns. That a
failed assertion's fault keeps the loop index latches too is the model's reading, log 26. -/
def Obligations.ChipSelectDrivesPin : Prop :=
  ∀ (s : State) (f : Frame) (rest : List Frame) (port pin : Byte) (level : Bool), s.running f rest →
    f.op = (if level then .csDeassert port pin else .csAssert port pin) →
    (f.line = 1 → exec f.op s = if port.toNat < 5 then .next { s with pc := { f with line := 2, sub := 0 } :: rest }
        else .next (s.faulted 5#8 (port.setWidth 32)))
      ∧ (f.line = 2 → exec f.op s = if pin.toNat < s.params.pinMaxOf port.toNat then
          .next { s with pc := { f with line := 3, sub := 0 } :: rest }
        else .next (s.faulted 6#8 (pin.setWidth 32)))
      ∧ (f.line = 3 → ∃ t, exec f.op s = .next t
        ∧ t = { s with pins := t.pins, trace := t.trace, devices := t.devices, pc := t.pc }
        ∧ t.pc = { f with line := 4, sub := 0 } :: rest
        ∧ t.trace = s.trace ++ [.cs port pin level]
        ∧ (port.toNat < 5 → pin.toNat < 16 → t.pin port.toNat pin.toNat = level)
        ∧ (∀ p n, (p, n) ≠ (port.toNat, pin.toNat) → t.pin p n = s.pin p n)
        ∧ t.devices.length = s.devices.length
        ∧ ∀ (k : Nat) (d : Device), s.devices[k]? = some d →
          t.devices[k]? = some (if level = false ∧ d.port = port ∧ d.pin = pin then
            { d with slave := { d.slave with phase := .header } } else d))
      ∧ (f.line = 4 → ∃ t, exec f.op s = .next t ∧ t.returnedTo rest ∧ t = { s with mode := t.mode, pc := t.pc })

/-- R165: ACC_WRITE composes the header and the value in HDR and calls CS_ASSERT, an SPI_TRANSFER of the two cells, and
CS_DEASSERT; a call stands on its caller's line until it returns. That a called operation starts with its loop index at
0 is the model's choice, log 27. -/
def Obligations.AccWriteLines : Prop :=
  ∀ (s : State) (f : Frame) (rest : List Frame) (ch port pin addr value : Byte), s.running f rest →
    f.op = .accWrite ch port pin addr value →
    (f.line = 1 → addr.toNat ≤ 0x3F → exec f.op s = .next
        { s with
          hdr := s.hdr.set 0 ((addr ||| 0x40#8).setWidth 16)
          pc := { f with line := 2, sub := 0 } :: rest })
      ∧ (f.line = 2 → exec f.op s = .next
        { s with hdr := s.hdr.set 1 (value.setWidth 16), pc := { f with line := 3, sub := 0 } :: rest })
      ∧ (f.line = 3 → exec f.op s = .next { s with pc := Frame.start (.csAssert port pin) :: f :: rest })
      ∧ (f.line = 4 → exec f.op s = .next
        { s with pc := Frame.start (.spiTransfer ch 2#16 s.params.hdrRef) :: f :: rest })
      ∧ (f.line = 5 → exec f.op s = .next { s with pc := Frame.start (.csDeassert port pin) :: f :: rest })
      ∧ (f.line = 6 → ∃ t, exec f.op s = .next t ∧ t.returnedTo rest ∧ t = { s with mode := t.mode, pc := t.pc })

/-- R168: ACC_INIT calls the three writes in their fixed order, marks the session, and returns. That a called operation
starts with its loop index at 0 is the model's choice, log 27. -/
def Obligations.AccInitLines : Prop :=
  ∀ (s : State) (f : Frame) (rest : List Frame) (ch port pin : Byte), s.running f rest →
    f.op = .accInit ch port pin →
    (f.line = 1 → exec f.op s = .next
        { s with pc := Frame.start (.accWrite ch port pin 0x31#8 0x01#8) :: f :: rest })
      ∧ (f.line = 2 → exec f.op s = .next
        { s with pc := Frame.start (.accWrite ch port pin 0x2D#8 0x00#8) :: f :: rest })
      ∧ (f.line = 3 → exec f.op s = .next
        { s with pc := Frame.start (.accWrite ch port pin 0x2D#8 0x08#8) :: f :: rest })
      ∧ (f.line = 4 → ∃ t, exec f.op s = .next t
        ∧ t = { s with inits := t.inits, pc := { f with line := 5, sub := 0 } :: rest }
        ∧ ∀ x : Session, t.accState x = if x = ⟨ch, port, pin⟩ then .init else s.accState x)
      ∧ (f.line = 5 → ∃ t, exec f.op s = .next t ∧ t.returnedTo rest ∧ t = { s with mode := t.mode, pc := t.pc })

/-- R171: ACC_READ composes the header and calls CS_ASSERT, an SPI_TRANSFER of the header cell, an SPI_RECEIVE of
`COUNT` words into the caller's buffer, and CS_DEASSERT. That a called operation starts with its loop index at 0 is the
model's choice, log 27. -/
def Obligations.AccReadLines : Prop :=
  ∀ (s : State) (f : Frame) (rest : List Frame) (ch port pin addr : Byte) (count : Half) (buf : Word),
    s.running f rest → f.op = .accRead ch port pin addr count buf →
    (f.line = 1 → addr.toNat ≤ 0x3F → exec f.op s = .next
        { s with
          hdr := s.hdr.set 0 ((addr ||| 0x80#8 ||| 0x40#8).setWidth 16)
          pc := { f with line := 2, sub := 0 } :: rest })
      ∧ (f.line = 2 → exec f.op s = .next { s with pc := Frame.start (.csAssert port pin) :: f :: rest })
      ∧ (f.line = 3 → exec f.op s = .next
        { s with pc := Frame.start (.spiTransfer ch 1#16 s.params.hdrRef) :: f :: rest })
      ∧ (f.line = 4 → exec f.op s = .next { s with pc := Frame.start (.spiReceive ch count buf) :: f :: rest })
      ∧ (f.line = 5 → exec f.op s = .next { s with pc := Frame.start (.csDeassert port pin) :: f :: rest })
      ∧ (f.line = 6 → ∃ t, exec f.op s = .next t ∧ t.returnedTo rest ∧ t = { s with mode := t.mode, pc := t.pc })

/-- R160, R162 to R171: what a step of an accelerometer or chip-select operation itself leaves unchanged: every channel,
the memories, RESULT, POLLS; the pins but for CS_ASSERT and CS_DEASSERT's own; HDR but for ACC_WRITE and ACC_READ; the
sessions but for ACC_INIT's own. -/
def Obligations.AccAndChipSelectFrame : Prop :=
  ∀ (s t : State) (i : Instr) (ch port pin addr value : Byte) (count : Half) (buf : Word),
    i ∈ [.csAssert port pin, .csDeassert port pin, .accInit ch port pin, .accWrite ch port pin addr value,
      .accRead ch port pin addr count buf] → exec i s = .next t →
    SameWorld s t ∧ t.chans = s.chans ∧ t.mem = s.mem ∧ t.result = s.result ∧ t.polls = s.polls ∧ t.lnk = s.lnk
      ∧ ((t.faultCode = s.faultCode ∧ t.faultInfo = s.faultInfo ∧ t.latches = s.latches)
        ∨ ∃ code info, t = s.faulted code info)
      ∧ ((i = .csAssert port pin ∨ i = .csDeassert port pin) →
        t.hdr = s.hdr ∧ t.inits = s.inits ∧ ∀ p n, (p, n) ≠ (port.toNat, pin.toNat) → t.pin p n = s.pin p n)
      ∧ (i ≠ .csAssert port pin → i ≠ .csDeassert port pin →
        t.pins = s.pins ∧ t.trace = s.trace ∧ t.devices = s.devices)
      ∧ (i = .accInit ch port pin → t.hdr = s.hdr ∧ ∀ x, x ≠ ⟨ch, port, pin⟩ → t.accState x = s.accState x)
      ∧ (i = .accWrite ch port pin addr value → t.inits = s.inits)
      ∧ (i = .accRead ch port pin addr count buf → t.inits = s.inits ∧ t.hdr[1] = s.hdr[1])

/-- R166, on the schedule in which the link takes each step as soon as it may: ACC_WRITE on an 8-bit full-duplex master
returns, and the TRACE gains exactly the chip-select going low, the header frame, the value frame and the chip-select
going high; the flags end as R139 says. -/
def Obligations.AccWriteEmitsOneTransaction : Prop :=
  ∀ (s : State) (f : Frame) (rest : List Frame) (ch port pin addr value : Byte) (c : Channel) (more : List Turn),
    s.running f rest → f.atLine (.accWrite ch port pin addr value) 1 → s.params.legal = true →
    ch.toNat < s.params.nCh → port.toNat < 5 → pin.toNat < s.params.pinMaxOf port.toNat → addr.toNat ≤ 0x3F →
    s.chans[ch.toNat]? = some c → c.ready = true → c.wide = false → s.turns = accWriteTurns ch.toNat ++ more →
    ∃ (t : State) (r0 r1 : Half) (c' : Channel),
      Host.Core.run core (accWriteTurns ch.toNat).length s = .next t ∧ t.returnedTo rest
        ∧ t.trace = s.trace ++ [.cs port pin false, .frame ch.toNat ((addr ||| 0x40#8).setWidth 16) r0,
            .frame ch.toNat (value.setWidth 16) r1, .cs port pin true]
        ∧ t.pin port.toNat pin.toNat = true
        ∧ (∀ p n, (p, n) ≠ (port.toNat, pin.toNat) → t.pin p n = s.pin p n)
        ∧ t.chans = s.chans.set ch.toNat c' ∧ c'.statusWord = 0x0002#16 ∧ c'.ctrl1 = c.ctrl1 ∧ c'.ctrl2 = c.ctrl2
        ∧ c'.shiftActive = false ∧ t.mem = s.mem ∧ t.inits = s.inits ∧ t.turns = more

/-- R169, on the same kind of schedule: ACC_INIT returns with its session marked INIT, the TRACE having gained exactly
its twelve events; a reference slave alone on the line then holds 0x01 in data-format and 0x08 in power-control, its
other registers unchanged (R177, R200). -/
def Obligations.AccInitEmitsThreeTransactions : Prop :=
  ∀ (s : State) (f : Frame) (rest : List Frame) (ch port pin : Byte) (c : Channel) (more : List Turn),
    s.running f rest → f.atLine (.accInit ch port pin) 1 → s.params.legal = true →
    ch.toNat < s.params.nCh → port.toNat < 5 → pin.toNat < s.params.pinMaxOf port.toNat →
    s.chans[ch.toNat]? = some c → c.ready = true → c.wide = false → s.turns = accInitTurns ch.toNat ++ more →
    ∃ (t : State) (r0 r1 r2 r3 r4 r5 : Half),
      Host.Core.run core (accInitTurns ch.toNat).length s = .next t ∧ t.returnedTo rest
        ∧ t.trace = s.trace ++
          [.cs port pin false, .frame ch.toNat 0x0071#16 r0, .frame ch.toNat 0x0001#16 r1, .cs port pin true,
            .cs port pin false, .frame ch.toNat 0x006D#16 r2, .frame ch.toNat 0x0000#16 r3, .cs port pin true,
            .cs port pin false, .frame ch.toNat 0x006D#16 r4, .frame ch.toNat 0x0008#16 r5, .cs port pin true]
        ∧ (∀ x : Session, t.accState x = if x = ⟨ch, port, pin⟩ then .init else s.accState x)
        ∧ t.turns = more
        ∧ ∀ d : Device, s.devices = [d] → d.chan = ch.toNat → d.port = port → d.pin = pin →
          ∃ d' : Device, t.devices = [d'] ∧ d'.slave.reg[0x31] = 0x01#8 ∧ d'.slave.reg[0x2D] = 0x08#8
            ∧ ∀ k : Fin 64, k.val ≠ 0x31 → k.val ≠ 0x2D → d'.slave.reg[k] = d.slave.reg[k]

/-- R172, on the same kind of schedule: ACC_READ on an 8-bit full-duplex master returns; the TRACE gains exactly the
chip-select going low, the header frame, `COUNT` frames sending 0, and the chip-select going high; the buffer's cells
hold what those frames received; the flags end at 0x0002. With one reference slave on the line cell `i` holds the device
register at `(ADDR + i) & 0x3F`, and the device's registers stay (R173, R201). -/
def Obligations.AccReadEmitsOneTransaction : Prop :=
  ∀ (s : State) (f : Frame) (rest : List Frame) (ch port pin addr : Byte) (count : Half) (buf : Word) (c : Channel)
    (more : List Turn),
    s.running f rest → f.atLine (.accRead ch port pin addr count buf) 1 → s.params.legal = true →
    ch.toNat < s.params.nCh → port.toNat < 5 → pin.toNat < s.params.pinMaxOf port.toNat → addr.toNat ≤ 0x3F →
    count ≠ 0#16 → buf ≠ 0#32 → s.hasCells buf count.toNat → s.chans[ch.toNat]? = some c → c.ready = true →
    c.wide = false → s.turns = accReadTurns ch.toNat count.toNat ++ more →
    ∃ (t : State) (r : Half) (received : List Half) (c' : Channel),
      Host.Core.run core (accReadTurns ch.toNat count.toNat).length s = .next t ∧ t.returnedTo rest
        ∧ received.length = count.toNat
        ∧ t.trace = s.trace ++ ([.cs port pin false, .frame ch.toNat ((addr ||| 0xC0#8).setWidth 16) r]
            ++ framesOf ch.toNat (List.replicate count.toNat 0x0000#16) received ++ [.cs port pin true])
        ∧ (∀ k, k < count.toNat → t.bufRead buf k = received[k]?)
        ∧ t.pin port.toNat pin.toNat = true
        ∧ t.chans = s.chans.set ch.toNat c' ∧ c'.statusWord = 0x0002#16 ∧ c'.shiftActive = false
        ∧ t.inits = s.inits ∧ t.turns = more
        ∧ ∀ d : Device, s.devices = [d] → d.chan = ch.toNat → d.port = port → d.pin = pin →
          ∃ d' : Device, t.devices = [d'] ∧ d'.slave.reg = d.slave.reg
            ∧ ∀ k, k < count.toNat →
              t.bufRead buf k = (d.slave.reg[(addr.toNat + k) % 64]?).map (fun b : Byte => b.setWidth 16)

/-! The link and the slave -/

/-- R191, R192: LINK_START moves the waiting word to the shifter, sets TXE and BSY, and changes nothing else; without
an enabled step, and with no step relation supplied for it, the link agent's turn changes nothing. -/
def Obligations.LinkStartStep : Prop :=
  ∀ (s : State) (c : Nat) (ch : Channel), s.chans[c]? = some ch →
    (ch.enable = true → ch.role = true → ch.rxonly = false → ch.txe = false → ch.shiftActive = false →
        linkStep c s = .next
          { s with
            lnk := c
            chans := s.chans.set c { ch with shift := ch.txbuf, shiftActive := true, txe := true, bsy := true } })
      ∧ ((ch.enable = false ∨ (s.params.linkOther = .refuse ∧ (ch.role = false ∨ ch.rxonly = true))) →
        linkStep c s = .next s)
      ∧ (ch.txe = true → ch.shiftActive = false → ch.role = true → ch.rxonly = false → linkStep c s = .next s)

/-- R193, R194, R195, R197: LINK_COMPLETE records the frame, both words masked to the frame width; the received word
goes to RXBUF if RXNE was 0, else OVR is set and the word is lost; the shifter is free, and BSY falls unless a word
waits. Whether a device takes the frame for a header changes nothing of this. -/
def Obligations.LinkCompleteStep : Prop :=
  ∀ (s : State) (c : Nat) (ch : Channel), s.chans[c]? = some ch → ch.enable = true → ch.role = true →
    ch.rxonly = false → ch.shiftActive = true →
    ∃ (t : State) (m tx rx : Half), linkStep c s = .next t
      ∧ m = (if ch.ctrl1.getLsbD 11 then 0xFFFF#16 else 0x00FF#16) ∧ tx = ch.shift &&& m
      ∧ rx = s.slaveAnswer c ch.wide tx &&& m
      ∧ t = { s with trace := s.trace ++ [.frame c tx rx], lnk := c, devices := t.devices, chans := t.chans }
      ∧ t.devices.length = s.devices.length
      ∧ t.chans = s.chans.set c
        { ch with
          rxbuf := if ch.rxne then ch.rxbuf else rx
          rxne := true
          ovr := if ch.rxne then true else ch.ovr
          shiftActive := false
          bsy := if ch.txe then false else ch.bsy }

/-- R203: the words given to a channel are those of the TRACE's frames and those that wait. With LINK_OTHER = refuse
every link agent's step conserves them; a step of a supplied relation (R206) need not. They grow, at the end, by each
word that SEQ writes to DATA, masked to the frame width: by SPI_TRANSFER's line 7, by SPI_RECEIVE's line 5, and by line 1
of an SPI_REGWRITE at the register's address. -/
def Obligations.FramesCarryTheWordsWritten : Prop :=
  (∀ (s t : State) (c c' : Nat), s.params.linkOther = .refuse → linkStep c' s = .next t →
      t.wordsGiven c = s.wordsGiven c)
    ∧ (∀ (s t : State) (f : Frame) (rest : List Frame) (ch : Byte) (count : Half) (buf : Word) (c : Channel) (n : Nat),
      s.running f rest → s.chans[ch.toNat]? = some c →
      ((f.atLine (.spiTransfer ch count buf) 7 → exec f.op s = .next t →
          t.wordsGiven n = s.wordsGiven n ++ (if n = ch.toNat then [f.tmp &&& c.mask] else []))
        ∧ (f.atLine (.spiReceive ch count buf) 5 → exec f.op s = .next t →
          t.wordsGiven n = s.wordsGiven n ++ (if n = ch.toNat then [0x0000#16] else []))))
    ∧ ∀ (s t : State) (f : Frame) (rest : List Frame) (a v base : Word) (k : Nat) (c : Channel) (n : Nat),
      s.running f rest → f.atLine (.spiRegWrite a v) 1 → s.params.legal = true → s.params.bases[k]? = some base →
      a = base + Reg.data.offset → s.chans[k]? = some c → exec f.op s = .next t →
      t.wordsGiven n = s.wordsGiven n ++ (if n = k then [v.setWidth 16 &&& c.mask] else [])

/-- R110, R115, R199: a header byte completing on the wire, of any of the four forms, is recorded as a frame and sets
every selected device that waits for a header: its pointer to the address, its multi-byte flag and its phase to what
the two modifiers say, its registers untouched; a device that is not selected hears nothing. That `exec` of a wire
row completes the 8-bit frame in flight on the channel `lnk`, and does nothing where there is none, is the model's
choice, log 25. -/
def Obligations.WireHeaderSetsTheDevice : Prop :=
  ∀ (s : State) (a : BitVec 6) (i : Instr) (read mb : Bool) (ch : Channel),
    (i, read, mb) ∈ [(.wireWriteMb a, false, true), (.wireReadMb a, true, true), (.wireWriteSb a, false, false),
      (.wireReadSb a, true, false)] → s.chans[s.lnk]? = some ch →
    ((ch.completeEnabled = true → ch.wide = false → ∃ (t : State) (rx : Half), exec i s = .next t
        ∧ t.trace = s.trace ++ [.frame s.lnk
            ((if read then 0x80#16 else 0x00#16) ||| (if mb then 0x40#16 else 0x00#16) ||| a.setWidth 16) rx]
        ∧ t.chans = s.chans.set s.lnk (ch.completed rx) ∧ rx &&& 0x00FF#16 = rx
        ∧ t.devices.length = s.devices.length
        ∧ ∀ (k : Nat) (d : Device), s.devices[k]? = some d → ∃ d' : Device, t.devices[k]? = some d'
          ∧ (d'.chan, d'.port, d'.pin) = (d.chan, d.port, d.pin)
          ∧ (s.selected s.lnk d = false → d' = d)
          ∧ (s.selected s.lnk d = true → d.slave.phase = .header →
            d'.slave = ⟨d.slave.reg, a, if read then .read else .write, mb⟩))
      ∧ ((ch.completeEnabled = false ∨ ch.wide = true) → exec i s = .next s))

/-- R193, R199: what a wire header leaves unchanged: every channel but the one whose frame it is, and of that one the
control registers, TXBUF, TXE and the shifter's word; pins, HDR, RESULT, sessions, memory, the sequencer, its operand
latches and its fault registers. That `exec` of a wire row acts on the channel `lnk` is the model's choice, log 25. -/
def Obligations.WireHeaderFrame : Prop :=
  ∀ (s t : State) (a : BitVec 6) (i : Instr), i ∈ [.wireWriteMb a, .wireReadMb a, .wireWriteSb a, .wireReadSb a] →
    exec i s = .next t →
    SameWorld s t ∧ t.pins = s.pins ∧ t.hdr = s.hdr ∧ t.result = s.result ∧ t.inits = s.inits ∧ t.mem = s.mem
      ∧ t.mode = s.mode ∧ t.pc = s.pc ∧ t.latches = s.latches ∧ t.faultCode = s.faultCode
      ∧ t.faultInfo = s.faultInfo ∧ t.polls = s.polls
      ∧ t.lnk = s.lnk ∧ t.chans.length = s.chans.length
      ∧ ∀ (c : Nat) (ch : Channel), s.chans[c]? = some ch → ∃ ch', t.chans[c]? = some ch' ∧ (c ≠ s.lnk → ch' = ch)
        ∧ ch'.ctrl1 = ch.ctrl1 ∧ ch'.ctrl2 = ch.ctrl2 ∧ ch'.txbuf = ch.txbuf ∧ ch'.txe = ch.txe
        ∧ ch'.shift = ch.shift ∧ ch'.ovrArm = ch.ovrArm

/-- R200, R201: after its header a selected reference slave takes an 8-bit frame as a write to the register at its
pointer, but never to register 0x00, or as a read, in which alone on its line it answers that register and keeps all of
them; and its pointer advances within six bits if its multi-byte flag is set. -/
def Obligations.ReferenceSlaveData : Prop :=
  ∀ (s : State) (c k : Nat) (ch : Channel) (d : Device), s.chans[c]? = some ch → ch.completeEnabled = true →
    ch.wide = false → s.devices[k]? = some d → s.selected c d = true → d.slave.phase ≠ .header →
    ∃ (t : State) (d' : Device), linkStep c s = .next t ∧ t.devices[k]? = some d'
      ∧ d'.slave.ptr = (if d.slave.mbf then d.slave.ptr + 1#6 else d.slave.ptr)
      ∧ d'.slave.phase = d.slave.phase ∧ d'.slave.mbf = d.slave.mbf
      ∧ (∀ n : Fin 64, d'.slave.reg[n] =
        if d.slave.phase = .write ∧ n.val = d.slave.ptr.toNat ∧ n.val ≠ 0 then ch.shift.setWidth 8
        else d.slave.reg[n])
      ∧ (d.slave.phase = .read → s.listeners c = [d] → ∃ tx b, d.slave.reg[d.slave.ptr.toNat]? = some b
        ∧ t.trace = s.trace ++ [.frame c tx (b.setWidth 16)])

/-! The whole machine -/

/-- R221, R222, R223: a step that ends in FAULT changes FAULT_CODE, to a code of the table, FAULT_INFO, the stack and
the state, and nothing else of the machine: every register, pin, flag and session keeps its value, and so does every
operand latch of R40 (that the loop index latches are among them is the model's reading, log 26). Beside that it is a
step: the turn is spent, and a command HOST presented is taken. -/
def Obligations.FaultEntryChangesNothingElse : Prop :=
  ∀ s t : State, step s = .next t → s.mode ≠ .fault → t.mode = .fault →
    ∃ (code : Byte) (info : Word) (inbox : List HostAct), 1 ≤ code.toNat ∧ code.toNat ≤ 8
      ∧ (inbox = s.inbox ∨ ∃ a, s.inbox = a :: inbox)
      ∧ t = State.faulted { s with inbox := inbox, turns := s.turns.tail, tick := s.tick + 1 } code info
      ∧ t.latched = s.latched ∧ ∀ l, t.operand l = s.operand l

/-- R224: FAULT is left by HOST's reset alone, and the port takes no command in it; any other step leaves the state, the
stack, the operand latches and the fault registers as they are, and no chip-select line moves. -/
def Obligations.FaultIsLeftByResetOnly : Prop :=
  ∀ s t : State, s.mode = .fault → step s = .next t → ¬ s.hostActs .reset →
    t.mode = .fault ∧ t.pc = s.pc ∧ t.latches = s.latches ∧ t.faultCode = s.faultCode ∧ t.faultInfo = s.faultInfo
      ∧ t.pins = s.pins
      ∧ t.inits = s.inits ∧ t.hdr = s.hdr ∧ t.result = s.result ∧ t.polls = s.polls
      ∧ ∀ d, s.inbox.head? = some (.command d) → t.inbox = s.inbox

/-- R38, R39, R62, R117, R160: the position stays one the operations make, from every state in which it is: a stack of
at most three frames, each calling the one above it along the fixed call graph and standing at a line of its operation,
empty exactly outside RUN, and operand latches left behind by a fault only; and from such a state no step stops at a place that is no line or a channel that is not
there. -/
def Obligations.PositionKept : Prop :=
  ∀ s : State, s.positionOk = true →
    (∀ r, step s ≠ .fault r) ∧ ∀ t, step s = .next t → t.positionOk = true

/-- R60, R64, R65 (the forms are the model's, log 9, 12, 13): every step keeps the memories in their canonical form,
and the sessions. -/
def Obligations.CanonicalFormsKept : Prop :=
  ∀ s t : State, s.listsOk = true → step s = .next t → t.listsOk = true

/-- R35, R194: every step keeps the flags in agreement with the hidden state: a frame in progress shows BSY, BSY without
one means that a word waits, so BSY = 0 and TXE = 1 imply that nothing is pending, and only a pending overrun is
armed. -/
def Obligations.FlagsSettledKept : Prop :=
  ∀ s t : State, s.params.linkOther = .refuse → s.flagsOk = true → step s = .next t →
    t.flagsOk = true ∧ ∀ ch ∈ t.chans, ch.bsy = false → ch.txe = true → ch.pending = []

/-- R172, R174, R175: while an ACC_WRITE or ACC_READ is between its CS_ASSERT and its CS_DEASSERT, its session's
chip-select line is low, whatever the agents do. -/
def Obligations.ChipSelectStaysLow : Prop :=
  ∀ s t : State, s.positionOk = true → s.selectOk = true → step s = .next t → t.selectOk = true

/-- R41, R212: FAULT_CODE is 0 outside FAULT and a code of the table in it, and FAULT_INFO is 0 without a fault. -/
def Obligations.FaultRegistersKept : Prop :=
  ∀ s t : State, s.faultRegsOk = true → step s = .next t → t.faultRegsOk = true

/-- R92, R99, R177, R227: the operation at the bottom of the stack is one HOST may issue: ACC_WRITE, CS_ASSERT and
CS_DEASSERT run only as another operation's call. -/
def Obligations.InternalOperationsOnlyCalled : Prop :=
  ∀ s t : State, s.entryOk = true → step s = .next t → t.entryOk = true

/-- R36, R40 to R42, R45, R64: which steps change what. Pins change by line 3 of CS_ASSERT or CS_DEASSERT; a session is
marked by line 4 of its ACC_INIT; RESULT is written by SPI_REGREAD; HDR by ACC_WRITE, ACC_READ and a receive into
HDR_REF; the memories by SPI_RECEIVE's line 8, SPI_REGWRITE and HOST's own acts (which the model takes one step for,
log 21). The TRACE only grows, by one event at most: from every position the operations make, line 3 of CS_ASSERT or
CS_DEASSERT appends the chip-select event of its pin and level, a link agent that completes a frame appends the frame of
its channel, and no other step appends any.
HOST's reset changes all of them but the memories (log 4); the parameters are changed by no step. -/
def Obligations.WhatChangesByWhichStep : Prop :=
  ∀ s t : State, step s = .next t → t.params = s.params ∧ ((s.hostActs .reset ∧ t.mem = s.mem) ∨
    ((t.pins ≠ s.pins → ∃ f port pin, s.seqOn f ∧ f.line = 3 ∧ (f.op = .csAssert port pin ∨ f.op = .csDeassert port pin))
      ∧ (t.inits ≠ s.inits → ∃ f ch port pin, s.seqOn f ∧ f.atLine (.accInit ch port pin) 4
        ∧ t.accState ⟨ch, port, pin⟩ = .init)
      ∧ (t.result ≠ s.result → ∃ f a, s.seqOn f ∧ f.atLine (.spiRegRead a) 1)
      ∧ (t.hdr ≠ s.hdr → ∃ f, s.seqOn f
        ∧ ((∃ ch port pin addr value, f.op = .accWrite ch port pin addr value)
          ∨ (∃ ch port pin addr count buf, f.atLine (.accRead ch port pin addr count buf) 1)
          ∨ ∃ ch count, f.atLine (.spiReceive ch count s.params.hdrRef) 8))
      ∧ (t.mem ≠ s.mem → (∃ ref cells, s.hostActs (.buffer ref cells)) ∨ (∃ ref records, s.hostActs (.table ref records))
        ∨ ∃ f, s.seqOn f ∧ ((∃ ch count buf, f.atLine (.spiReceive ch count buf) 8)
          ∨ ∃ a v, f.atLine (.spiRegWrite a v) 1))
      ∧ (t.trace = s.trace ∨ ∃ e, t.trace = s.trace ++ [e])
      ∧ (s.positionOk = true → t.trace ≠ s.trace →
        (∃ f port pin level, s.seqOn f ∧ f.atLine (if level then .csDeassert port pin else .csAssert port pin) 3
          ∧ t.trace = s.trace ++ [.cs port pin level])
        ∨ ∃ c ch tx rx, s.nextTurn = some (.link c) ∧ s.chans[c]? = some ch
          ∧ (ch.completeEnabled = true ∨ (ch.linkOpen = true ∧ s.params.linkOther = .supplied))
          ∧ t.trace = s.trace ++ [.frame c tx rx])))
end

