-- ==== Sys2Proof/Laws/Keys.lean ====
section
/-! SUPPORT. The lists by key: a read after a write, and that every memory operation keeps the canonical form. -/

namespace Sys2Proof.Machine

section Keys

variable {β : Type}

/-- Every key of the list is above `k`. -/
def keysAbove (k : Nat) (l : List (Nat × β)) : Prop := ∀ e ∈ l, k < e.1

theorem keysRise_cons (a : Nat) (b : β) (t : List (Nat × β)) :
    keysRise ((a, b) :: t) = true ↔ keysAbove a t ∧ keysRise t = true := by
  simp [keysRise, keysAbove]

theorem keyRead_of_above (dflt : β) (k : Nat) :
    ∀ l : List (Nat × β), keysAbove k l → keyRead dflt k l = dflt
  | [], _ => rfl
  | (a, b) :: t, h => by
    have ha : a ≠ k := Nat.ne_of_gt (h (a, b) (by simp))
    simp only [keyRead, if_neg ha]
    exact keyRead_of_above dflt k t (fun e he => h e (by simp [he]))

theorem keyRead_keyPut_same (dflt : β) (k : Nat) (v : β) :
    ∀ l : List (Nat × β), keyRead dflt k (keyPut k v l) = v
  | [] => by simp [keyPut, keyRead]
  | (a, b) :: t => by
    unfold keyPut
    split
    · simp [keyRead]
    · split
      · simp [keyRead]
      · rename_i _ hne
        simp only [keyRead, if_neg hne]
        exact keyRead_keyPut_same dflt k v t

theorem keyRead_keyPut_other (dflt : β) (k j : Nat) (v : β) (hj : j ≠ k) :
    ∀ l : List (Nat × β), keyRead dflt j (keyPut k v l) = keyRead dflt j l
  | [] => by simp [keyPut, keyRead, Ne.symm hj]
  | (a, b) :: t => by
    unfold keyPut
    split
    · simp [keyRead, Ne.symm hj]
    · split
      · rename_i hak
        subst hak
        simp [keyRead, Ne.symm hj]
      · simp only [keyRead]
        rw [keyRead_keyPut_other dflt k j v hj t]

theorem keyRead_keyDrop_other (dflt : β) (k j : Nat) (hj : j ≠ k) :
    ∀ l : List (Nat × β), keyRead dflt j (keyDrop k l) = keyRead dflt j l
  | [] => rfl
  | (a, b) :: t => by
    unfold keyDrop
    split
    · rename_i hak
      subst hak
      simp [keyRead, Ne.symm hj]
    · simp only [keyRead]
      rw [keyRead_keyDrop_other dflt k j hj t]

theorem keyRead_keyDrop_same (dflt : β) (k : Nat) :
    ∀ l : List (Nat × β), keysRise l = true → keyRead dflt k (keyDrop k l) = dflt
  | [], _ => rfl
  | (a, b) :: t, h => by
    obtain ⟨habove, ht⟩ := (keysRise_cons a b t).mp h
    unfold keyDrop
    split
    · rename_i hak
      subst hak
      exact keyRead_of_above dflt a t habove
    · rename_i hak
      simp only [keyRead, if_neg hak]
      exact keyRead_keyDrop_same dflt k t ht

theorem keysAbove_keyPut (a k : Nat) (v : β) (hak : a < k) :
    ∀ l : List (Nat × β), keysAbove a l → keysAbove a (keyPut k v l)
  | [], _ => by simpa [keyPut, keysAbove] using hak
  | (b, w) :: t, h => by
    have hb : a < b := h (b, w) (by simp)
    have ht : keysAbove a t := fun e he => h e (by simp [he])
    unfold keyPut
    split
    · intro e he
      simp only [List.mem_cons] at he
      rcases he with rfl | rfl | he
      · exact hak
      · exact hb
      · exact ht e he
    · split
      · intro e he
        simp only [List.mem_cons] at he
        rcases he with rfl | he
        · exact hak
        · exact ht e he
      · intro e he
        simp only [List.mem_cons] at he
        rcases he with rfl | he
        · exact hb
        · exact keysAbove_keyPut a k v hak t ht e he

theorem keysRise_keyPut (k : Nat) (v : β) :
    ∀ l : List (Nat × β), keysRise l = true → keysRise (keyPut k v l) = true
  | [], _ => by simp [keyPut, keysRise]
  | (a, b) :: t, h => by
    obtain ⟨habove, ht⟩ := (keysRise_cons a b t).mp h
    unfold keyPut
    split
    · rename_i hka
      refine (keysRise_cons k v _).mpr ⟨?_, h⟩
      intro e he
      simp only [List.mem_cons] at he
      rcases he with rfl | he
      · exact hka
      · exact Nat.lt_trans hka (habove e he)
    · split
      · rename_i hak
        subst hak
        exact (keysRise_cons a v t).mpr ⟨habove, ht⟩
      · rename_i hka hak
        exact (keysRise_cons a b _).mpr
          ⟨keysAbove_keyPut a k v (by omega) t habove, keysRise_keyPut k v t ht⟩

theorem mem_keyDrop (k : Nat) : ∀ (l : List (Nat × β)) (e : Nat × β), e ∈ keyDrop k l → e ∈ l
  | [], _, h => h
  | (a, b) :: t, e, h => by
    unfold keyDrop at h
    split at h
    · exact List.mem_cons_of_mem _ h
    · simp only [List.mem_cons] at h
      rcases h with rfl | h
      · exact List.mem_cons_self
      · exact List.mem_cons_of_mem _ (mem_keyDrop k t e h)

theorem keysRise_keyDrop (k : Nat) :
    ∀ l : List (Nat × β), keysRise l = true → keysRise (keyDrop k l) = true
  | [], h => h
  | (a, b) :: t, h => by
    obtain ⟨habove, ht⟩ := (keysRise_cons a b t).mp h
    unfold keyDrop
    split
    · exact ht
    · exact (keysRise_cons a b _).mpr
        ⟨fun e he => habove e (mem_keyDrop k t e he), keysRise_keyDrop k t ht⟩

theorem mem_keyPut (k : Nat) (v : β) :
    ∀ (l : List (Nat × β)) (e : Nat × β), e ∈ keyPut k v l → e = (k, v) ∨ e ∈ l
  | [], e, h => by simpa [keyPut] using h
  | (a, b) :: t, e, h => by
    unfold keyPut at h
    split at h
    · simpa using h
    · split at h
      · simp only [List.mem_cons] at h
        rcases h with h | h
        · exact .inl h
        · exact .inr (List.mem_cons_of_mem _ h)
      · simp only [List.mem_cons] at h
        rcases h with rfl | h
        · exact .inr List.mem_cons_self
        · rcases mem_keyPut k v t e h with h | h
          · exact .inl h
          · exact .inr (List.mem_cons_of_mem _ h)

variable [DecidableEq β]

/-- A read of the key just written gives the value written. -/
theorem keyRead_keyWrite_same (dflt : β) (k : Nat) (v : β) (l : List (Nat × β)) (h : keysRise l = true) :
    keyRead dflt k (keyWrite dflt k v l) = v := by
  unfold keyWrite
  split
  · rename_i hv
    subst hv
    exact keyRead_keyDrop_same v k l h
  · exact keyRead_keyPut_same dflt k v l

/-- A write leaves every other key alone. -/
theorem keyRead_keyWrite_other (dflt : β) (k j : Nat) (v : β) (l : List (Nat × β)) (hj : j ≠ k) :
    keyRead dflt j (keyWrite dflt k v l) = keyRead dflt j l := by
  unfold keyWrite
  split
  · exact keyRead_keyDrop_other dflt k j hj l
  · exact keyRead_keyPut_other dflt k j v hj l

theorem keyCanonical_iff (dflt : β) (l : List (Nat × β)) :
    keyCanonical dflt l = true ↔ keysRise l = true ∧ ∀ e ∈ l, e.2 ≠ dflt := by
  simp [keyCanonical]

/-- A write keeps the canonical form. -/
theorem keyCanonical_keyWrite (dflt : β) (k : Nat) (v : β) (l : List (Nat × β))
    (h : keyCanonical dflt l = true) : keyCanonical dflt (keyWrite dflt k v l) = true := by
  obtain ⟨hr, hd⟩ := (keyCanonical_iff dflt l).mp h
  refine (keyCanonical_iff dflt _).mpr ?_
  unfold keyWrite
  split
  · exact ⟨keysRise_keyDrop k l hr, fun e he => hd e (mem_keyDrop k l e he)⟩
  · rename_i hv
    refine ⟨keysRise_keyPut k v l hr, fun e he => ?_⟩
    rcases mem_keyPut k v l e he with rfl | he
    · exact hv
    · exact hd e he

end Keys

/-! The memory operations keep the canonical form -/

theorem Memory.wf_iff (m : Memory) :
    m.wf = true ↔ keyCanonical [] m.buffers = true ∧ keyCanonical [] m.tables = true
      ∧ keyCanonical 0x00#8 m.plat = true := by
  simp [Memory.wf, and_assoc]

theorem Memory.wf_putCells (m : Memory) (ref : Word) (cells : List Half) (h : m.wf = true) :
    (m.putCells ref cells).wf = true := by
  obtain ⟨hb, ht, hp⟩ := m.wf_iff.mp h
  exact (Memory.wf_iff _).mpr ⟨keyCanonical_keyWrite _ _ _ _ hb, ht, hp⟩

theorem Memory.wf_putRecords (m : Memory) (ref : Word) (records : List CfgRecord) (h : m.wf = true) :
    (m.putRecords ref records).wf = true := by
  obtain ⟨hb, ht, hp⟩ := m.wf_iff.mp h
  exact (Memory.wf_iff _).mpr ⟨hb, keyCanonical_keyWrite _ _ _ _ ht, hp⟩

theorem Memory.wf_putByte (m : Memory) (a : Nat) (v : Byte) (h : m.wf = true) : (m.putByte a v).wf = true := by
  obtain ⟨hb, ht, hp⟩ := m.wf_iff.mp h
  exact (Memory.wf_iff _).mpr ⟨hb, ht, keyCanonical_keyWrite _ _ _ _ hp⟩

theorem Memory.wf_putWord (m : Memory) (a : Nat) (v : Word) (h : m.wf = true) : (m.putWord a v).wf = true := by
  unfold Memory.putWord
  exact Memory.wf_putByte _ _ _ (Memory.wf_putByte _ _ _ (Memory.wf_putByte _ _ _ (Memory.wf_putByte _ _ _ h)))

/-- The memory of `State.reset` has the canonical form. -/
theorem reset_memory_wf : State.reset.mem.wf = true := by decide

/-- The cells under a reference just written. -/
theorem Memory.cells_putCells_same (m : Memory) (ref : Word) (cells : List Half) (h : m.wf = true) :
    (m.putCells ref cells).cells ref = cells :=
  keyRead_keyWrite_same _ _ _ _ ((keyCanonical_iff _ _).mp (m.wf_iff.mp h).1).1

/-- The cells under another reference. -/
theorem Memory.cells_putCells_other (m : Memory) (ref ref' : Word) (cells : List Half) (h : ref' ≠ ref) :
    (m.putCells ref cells).cells ref' = m.cells ref' :=
  keyRead_keyWrite_other _ _ _ _ _ (fun e => h (BitVec.eq_of_toNat_eq e))

/-- A byte just written. -/
theorem Memory.byte_putByte_same (m : Memory) (a : Nat) (v : Byte) (h : m.wf = true) : (m.putByte a v).byte a = v :=
  keyRead_keyWrite_same _ _ _ _ ((keyCanonical_iff _ _).mp (m.wf_iff.mp h).2.2).1

/-- Another byte. -/
theorem Memory.byte_putByte_other (m : Memory) (a b : Nat) (v : Byte) (h : b ≠ a) :
    (m.putByte a v).byte b = m.byte b :=
  keyRead_keyWrite_other _ _ _ _ _ h

@[simp] theorem Memory.putCells_tables (m : Memory) (ref : Word) (cells : List Half) :
    (m.putCells ref cells).tables = m.tables := rfl

@[simp] theorem Memory.putCells_plat (m : Memory) (ref : Word) (cells : List Half) :
    (m.putCells ref cells).plat = m.plat := rfl

@[simp] theorem Memory.putRecords_buffers (m : Memory) (ref : Word) (records : List CfgRecord) :
    (m.putRecords ref records).buffers = m.buffers := rfl

@[simp] theorem Memory.putRecords_plat (m : Memory) (ref : Word) (records : List CfgRecord) :
    (m.putRecords ref records).plat = m.plat := rfl

@[simp] theorem Memory.putByte_buffers (m : Memory) (a : Nat) (v : Byte) : (m.putByte a v).buffers = m.buffers := rfl

@[simp] theorem Memory.putByte_tables (m : Memory) (a : Nat) (v : Byte) : (m.putByte a v).tables = m.tables := rfl

@[simp] theorem Memory.putWord_buffers (m : Memory) (a : Nat) (v : Word) : (m.putWord a v).buffers = m.buffers := rfl

@[simp] theorem Memory.putWord_tables (m : Memory) (a : Nat) (v : Word) : (m.putWord a v).tables = m.tables := rfl

/-! The sessions -/

theorem sessionsRise_cons (x : Session) (t : List Session) :
    sessionsRise (x :: t) = true ↔ (∀ y ∈ t, x.key < y.key) ∧ sessionsRise t = true := by
  simp [sessionsRise]

theorem mem_insertSession (x y : Session) : ∀ l : List Session, y ∈ insertSession x l ↔ y = x ∨ y ∈ l
  | [] => by simp [insertSession]
  | z :: t => by
    unfold insertSession
    split
    · simp
    · split
      · rename_i hz
        subst hz
        simp
      · simp only [List.mem_cons, mem_insertSession x y t]
        tauto

theorem Session.key_injective (x y : Session) (h : x.key = y.key) : x = y := by
  obtain ⟨a, b, c⟩ := x
  obtain ⟨a', b', c'⟩ := y
  simp only [Session.key] at h
  have h1 := a.isLt
  have h2 := b.isLt
  have h3 := c.isLt
  have h4 := a'.isLt
  have h5 := b'.isLt
  have h6 := c'.isLt
  have e1 : a = a' := BitVec.eq_of_toNat_eq (by omega)
  have e2 : b = b' := BitVec.eq_of_toNat_eq (by omega)
  have e3 : c = c' := BitVec.eq_of_toNat_eq (by omega)
  rw [e1, e2, e3]

/-- Inserting a session keeps the order. -/
theorem sessionsRise_insertSession (x : Session) :
    ∀ l : List Session, sessionsRise l = true → sessionsRise (insertSession x l) = true
  | [], _ => by simp [insertSession, sessionsRise]
  | z :: t, h => by
    obtain ⟨hz, ht⟩ := (sessionsRise_cons z t).mp h
    unfold insertSession
    split
    · rename_i hlt
      refine (sessionsRise_cons x _).mpr ⟨fun y hy => ?_, h⟩
      simp only [List.mem_cons] at hy
      rcases hy with rfl | hy
      · exact hlt
      · exact Nat.lt_trans hlt (hz y hy)
    · split
      · exact h
      · rename_i hlt hne
        refine (sessionsRise_cons z _).mpr ⟨fun y hy => ?_, sessionsRise_insertSession x t ht⟩
        rcases (mem_insertSession x y t).mp hy with rfl | hy
        · exact Nat.lt_of_le_of_ne (Nat.le_of_not_lt hlt) (fun e => hne (Session.key_injective _ _ e))
        · exact hz y hy

/-- A session just initialised is INIT, every other as before (R42). -/
theorem State.accState_setInit (s : State) (x y : Session) :
    (s.setInit x).accState y = if y = x then .init else s.accState y := by
  unfold State.accState State.setInit
  simp only [mem_insertSession]
  by_cases h : y = x <;> simp [h]

end Sys2Proof.Machine
end

