-- ==== Sys2Proof/Laws/State.lean ====
section
/-! SUPPORT. What each update of the state leaves in each field: one lemma per field per update, so that no proof
unfolds a record update. -/

namespace Sys2Proof.Machine

/-! Channel `c` put back. -/

@[simp] theorem State.setChan_params (s : State) (c : Nat) (ch : Channel) : (s.setChan c ch).params = s.params := rfl

@[simp] theorem State.setChan_chans (s : State) (c : Nat) (ch : Channel) :
    (s.setChan c ch).chans = s.chans.set c ch := rfl

@[simp] theorem State.setChan_pins (s : State) (c : Nat) (ch : Channel) : (s.setChan c ch).pins = s.pins := rfl

@[simp] theorem State.setChan_mode (s : State) (c : Nat) (ch : Channel) : (s.setChan c ch).mode = s.mode := rfl

@[simp] theorem State.setChan_pc (s : State) (c : Nat) (ch : Channel) : (s.setChan c ch).pc = s.pc := rfl

@[simp] theorem State.setChan_latches (s : State) (c : Nat) (ch : Channel) :
    (s.setChan c ch).latches = s.latches := rfl

@[simp] theorem State.setChan_hdr (s : State) (c : Nat) (ch : Channel) : (s.setChan c ch).hdr = s.hdr := rfl

@[simp] theorem State.setChan_result (s : State) (c : Nat) (ch : Channel) : (s.setChan c ch).result = s.result := rfl

@[simp] theorem State.setChan_faultCode (s : State) (c : Nat) (ch : Channel) :
    (s.setChan c ch).faultCode = s.faultCode := rfl

@[simp] theorem State.setChan_faultInfo (s : State) (c : Nat) (ch : Channel) :
    (s.setChan c ch).faultInfo = s.faultInfo := rfl

@[simp] theorem State.setChan_polls (s : State) (c : Nat) (ch : Channel) : (s.setChan c ch).polls = s.polls := rfl

@[simp] theorem State.setChan_inits (s : State) (c : Nat) (ch : Channel) : (s.setChan c ch).inits = s.inits := rfl

@[simp] theorem State.setChan_trace (s : State) (c : Nat) (ch : Channel) : (s.setChan c ch).trace = s.trace := rfl

@[simp] theorem State.setChan_mem (s : State) (c : Nat) (ch : Channel) : (s.setChan c ch).mem = s.mem := rfl

@[simp] theorem State.setChan_devices (s : State) (c : Nat) (ch : Channel) :
    (s.setChan c ch).devices = s.devices := rfl

@[simp] theorem State.setChan_inbox (s : State) (c : Nat) (ch : Channel) : (s.setChan c ch).inbox = s.inbox := rfl

@[simp] theorem State.setChan_turns (s : State) (c : Nat) (ch : Channel) : (s.setChan c ch).turns = s.turns := rfl

@[simp] theorem State.setChan_tick (s : State) (c : Nat) (ch : Channel) : (s.setChan c ch).tick = s.tick := rfl

@[simp] theorem State.setChan_epoch (s : State) (c : Nat) (ch : Channel) : (s.setChan c ch).epoch = s.epoch := rfl

@[simp] theorem State.setChan_lnk (s : State) (c : Nat) (ch : Channel) : (s.setChan c ch).lnk = s.lnk := rfl

/-! The top frame put back. -/

@[simp] theorem State.setTop_params (s : State) (f : Frame) : (s.setTop f).params = s.params := rfl

@[simp] theorem State.setTop_chans (s : State) (f : Frame) : (s.setTop f).chans = s.chans := rfl

@[simp] theorem State.setTop_pins (s : State) (f : Frame) : (s.setTop f).pins = s.pins := rfl

@[simp] theorem State.setTop_mode (s : State) (f : Frame) : (s.setTop f).mode = s.mode := rfl

@[simp] theorem State.setTop_pc (s : State) (f : Frame) : (s.setTop f).pc = f :: s.pc.tail := rfl

@[simp] theorem State.setTop_latches (s : State) (f : Frame) : (s.setTop f).latches = s.latches := rfl

@[simp] theorem State.setTop_hdr (s : State) (f : Frame) : (s.setTop f).hdr = s.hdr := rfl

@[simp] theorem State.setTop_result (s : State) (f : Frame) : (s.setTop f).result = s.result := rfl

@[simp] theorem State.setTop_faultCode (s : State) (f : Frame) : (s.setTop f).faultCode = s.faultCode := rfl

@[simp] theorem State.setTop_faultInfo (s : State) (f : Frame) : (s.setTop f).faultInfo = s.faultInfo := rfl

@[simp] theorem State.setTop_polls (s : State) (f : Frame) : (s.setTop f).polls = s.polls := rfl

@[simp] theorem State.setTop_inits (s : State) (f : Frame) : (s.setTop f).inits = s.inits := rfl

@[simp] theorem State.setTop_trace (s : State) (f : Frame) : (s.setTop f).trace = s.trace := rfl

@[simp] theorem State.setTop_mem (s : State) (f : Frame) : (s.setTop f).mem = s.mem := rfl

@[simp] theorem State.setTop_devices (s : State) (f : Frame) : (s.setTop f).devices = s.devices := rfl

@[simp] theorem State.setTop_inbox (s : State) (f : Frame) : (s.setTop f).inbox = s.inbox := rfl

@[simp] theorem State.setTop_turns (s : State) (f : Frame) : (s.setTop f).turns = s.turns := rfl

@[simp] theorem State.setTop_tick (s : State) (f : Frame) : (s.setTop f).tick = s.tick := rfl

@[simp] theorem State.setTop_epoch (s : State) (f : Frame) : (s.setTop f).epoch = s.epoch := rfl

@[simp] theorem State.setTop_lnk (s : State) (f : Frame) : (s.setTop f).lnk = s.lnk := rfl

/-! A command accepted (R39). -/

@[simp] theorem State.accept_params (s : State) (i : Instr) : (s.accept i).params = s.params := rfl

@[simp] theorem State.accept_chans (s : State) (i : Instr) : (s.accept i).chans = s.chans := rfl

@[simp] theorem State.accept_pins (s : State) (i : Instr) : (s.accept i).pins = s.pins := rfl

@[simp] theorem State.accept_mode (s : State) (i : Instr) : (s.accept i).mode = .run := rfl

@[simp] theorem State.accept_pc (s : State) (i : Instr) : (s.accept i).pc = Frame.start i :: s.pc := rfl

@[simp] theorem State.accept_latches (s : State) (i : Instr) : (s.accept i).latches = s.latches := rfl

@[simp] theorem State.accept_hdr (s : State) (i : Instr) : (s.accept i).hdr = s.hdr := rfl

@[simp] theorem State.accept_result (s : State) (i : Instr) : (s.accept i).result = s.result := rfl

@[simp] theorem State.accept_faultCode (s : State) (i : Instr) : (s.accept i).faultCode = s.faultCode := rfl

@[simp] theorem State.accept_faultInfo (s : State) (i : Instr) : (s.accept i).faultInfo = s.faultInfo := rfl

@[simp] theorem State.accept_polls (s : State) (i : Instr) : (s.accept i).polls = s.polls := rfl

@[simp] theorem State.accept_inits (s : State) (i : Instr) : (s.accept i).inits = s.inits := rfl

@[simp] theorem State.accept_trace (s : State) (i : Instr) : (s.accept i).trace = s.trace := rfl

@[simp] theorem State.accept_mem (s : State) (i : Instr) : (s.accept i).mem = s.mem := rfl

@[simp] theorem State.accept_devices (s : State) (i : Instr) : (s.accept i).devices = s.devices := rfl

@[simp] theorem State.accept_inbox (s : State) (i : Instr) : (s.accept i).inbox = s.inbox := rfl

@[simp] theorem State.accept_turns (s : State) (i : Instr) : (s.accept i).turns = s.turns := rfl

@[simp] theorem State.accept_tick (s : State) (i : Instr) : (s.accept i).tick = s.tick := rfl

@[simp] theorem State.accept_epoch (s : State) (i : Instr) : (s.accept i).epoch = s.epoch := rfl

@[simp] theorem State.accept_lnk (s : State) (i : Instr) : (s.accept i).lnk = s.lnk := rfl

/-! An operation called (R160). -/

@[simp] theorem State.call_params (s : State) (i : Instr) : (s.call i).params = s.params := rfl

@[simp] theorem State.call_chans (s : State) (i : Instr) : (s.call i).chans = s.chans := rfl

@[simp] theorem State.call_pins (s : State) (i : Instr) : (s.call i).pins = s.pins := rfl

@[simp] theorem State.call_mode (s : State) (i : Instr) : (s.call i).mode = s.mode := rfl

@[simp] theorem State.call_pc (s : State) (i : Instr) : (s.call i).pc = Frame.start i :: s.pc := rfl

@[simp] theorem State.call_latches (s : State) (i : Instr) : (s.call i).latches = s.latches := rfl

@[simp] theorem State.call_hdr (s : State) (i : Instr) : (s.call i).hdr = s.hdr := rfl

@[simp] theorem State.call_result (s : State) (i : Instr) : (s.call i).result = s.result := rfl

@[simp] theorem State.call_faultCode (s : State) (i : Instr) : (s.call i).faultCode = s.faultCode := rfl

@[simp] theorem State.call_faultInfo (s : State) (i : Instr) : (s.call i).faultInfo = s.faultInfo := rfl

@[simp] theorem State.call_polls (s : State) (i : Instr) : (s.call i).polls = s.polls := rfl

@[simp] theorem State.call_inits (s : State) (i : Instr) : (s.call i).inits = s.inits := rfl

@[simp] theorem State.call_trace (s : State) (i : Instr) : (s.call i).trace = s.trace := rfl

@[simp] theorem State.call_mem (s : State) (i : Instr) : (s.call i).mem = s.mem := rfl

@[simp] theorem State.call_devices (s : State) (i : Instr) : (s.call i).devices = s.devices := rfl

@[simp] theorem State.call_inbox (s : State) (i : Instr) : (s.call i).inbox = s.inbox := rfl

@[simp] theorem State.call_turns (s : State) (i : Instr) : (s.call i).turns = s.turns := rfl

@[simp] theorem State.call_tick (s : State) (i : Instr) : (s.call i).tick = s.tick := rfl

@[simp] theorem State.call_epoch (s : State) (i : Instr) : (s.call i).epoch = s.epoch := rfl

@[simp] theorem State.call_lnk (s : State) (i : Instr) : (s.call i).lnk = s.lnk := rfl

/-! A fault taken (R222). -/

@[simp] theorem State.raise_params (s : State) (x : FaultCause) (info : Word) :
    (s.raise x info).params = s.params := rfl

@[simp] theorem State.raise_chans (s : State) (x : FaultCause) (info : Word) : (s.raise x info).chans = s.chans := rfl

@[simp] theorem State.raise_pins (s : State) (x : FaultCause) (info : Word) : (s.raise x info).pins = s.pins := rfl

@[simp] theorem State.raise_mode (s : State) (x : FaultCause) (info : Word) : (s.raise x info).mode = .fault := rfl

@[simp] theorem State.raise_pc (s : State) (x : FaultCause) (info : Word) : (s.raise x info).pc = [] := rfl

@[simp] theorem State.raise_latches (s : State) (x : FaultCause) (info : Word) :
    (s.raise x info).latches = s.latched := rfl

@[simp] theorem State.raise_hdr (s : State) (x : FaultCause) (info : Word) : (s.raise x info).hdr = s.hdr := rfl

@[simp] theorem State.raise_result (s : State) (x : FaultCause) (info : Word) :
    (s.raise x info).result = s.result := rfl

@[simp] theorem State.raise_faultCode (s : State) (x : FaultCause) (info : Word) :
    (s.raise x info).faultCode = x.code := rfl

@[simp] theorem State.raise_faultInfo (s : State) (x : FaultCause) (info : Word) :
    (s.raise x info).faultInfo = info := rfl

@[simp] theorem State.raise_polls (s : State) (x : FaultCause) (info : Word) : (s.raise x info).polls = s.polls := rfl

@[simp] theorem State.raise_inits (s : State) (x : FaultCause) (info : Word) : (s.raise x info).inits = s.inits := rfl

@[simp] theorem State.raise_trace (s : State) (x : FaultCause) (info : Word) : (s.raise x info).trace = s.trace := rfl

@[simp] theorem State.raise_mem (s : State) (x : FaultCause) (info : Word) : (s.raise x info).mem = s.mem := rfl

@[simp] theorem State.raise_devices (s : State) (x : FaultCause) (info : Word) :
    (s.raise x info).devices = s.devices := rfl

@[simp] theorem State.raise_inbox (s : State) (x : FaultCause) (info : Word) : (s.raise x info).inbox = s.inbox := rfl

@[simp] theorem State.raise_turns (s : State) (x : FaultCause) (info : Word) : (s.raise x info).turns = s.turns := rfl

@[simp] theorem State.raise_tick (s : State) (x : FaultCause) (info : Word) : (s.raise x info).tick = s.tick := rfl

@[simp] theorem State.raise_epoch (s : State) (x : FaultCause) (info : Word) : (s.raise x info).epoch = s.epoch := rfl

@[simp] theorem State.raise_lnk (s : State) (x : FaultCause) (info : Word) : (s.raise x info).lnk = s.lnk := rfl

/-! A pin written (R162). -/

@[simp] theorem State.pinWrite_params (s : State) (p n : Byte) (b : Bool) :
    (s.pinWrite p n b).params = s.params := rfl

@[simp] theorem State.pinWrite_chans (s : State) (p n : Byte) (b : Bool) : (s.pinWrite p n b).chans = s.chans := rfl

@[simp] theorem State.pinWrite_pins (s : State) (p n : Byte) (b : Bool) :
    (s.pinWrite p n b).pins = setPinLatch s.pins p.toNat n.toNat b := rfl

@[simp] theorem State.pinWrite_mode (s : State) (p n : Byte) (b : Bool) : (s.pinWrite p n b).mode = s.mode := rfl

@[simp] theorem State.pinWrite_pc (s : State) (p n : Byte) (b : Bool) : (s.pinWrite p n b).pc = s.pc := rfl

@[simp] theorem State.pinWrite_latches (s : State) (p n : Byte) (b : Bool) :
    (s.pinWrite p n b).latches = s.latches := rfl

@[simp] theorem State.pinWrite_hdr (s : State) (p n : Byte) (b : Bool) : (s.pinWrite p n b).hdr = s.hdr := rfl

@[simp] theorem State.pinWrite_result (s : State) (p n : Byte) (b : Bool) :
    (s.pinWrite p n b).result = s.result := rfl

@[simp] theorem State.pinWrite_faultCode (s : State) (p n : Byte) (b : Bool) :
    (s.pinWrite p n b).faultCode = s.faultCode := rfl

@[simp] theorem State.pinWrite_faultInfo (s : State) (p n : Byte) (b : Bool) :
    (s.pinWrite p n b).faultInfo = s.faultInfo := rfl

@[simp] theorem State.pinWrite_polls (s : State) (p n : Byte) (b : Bool) : (s.pinWrite p n b).polls = s.polls := rfl

@[simp] theorem State.pinWrite_inits (s : State) (p n : Byte) (b : Bool) : (s.pinWrite p n b).inits = s.inits := rfl

@[simp] theorem State.pinWrite_trace (s : State) (p n : Byte) (b : Bool) :
    (s.pinWrite p n b).trace = s.trace ++ [.cs p n b] := rfl

@[simp] theorem State.pinWrite_mem (s : State) (p n : Byte) (b : Bool) : (s.pinWrite p n b).mem = s.mem := rfl

@[simp] theorem State.pinWrite_devices (s : State) (p n : Byte) (b : Bool) :
    (s.pinWrite p n b).devices = s.devices.map (fun d => d.hearPin p n b) := rfl

@[simp] theorem State.pinWrite_inbox (s : State) (p n : Byte) (b : Bool) : (s.pinWrite p n b).inbox = s.inbox := rfl

@[simp] theorem State.pinWrite_turns (s : State) (p n : Byte) (b : Bool) : (s.pinWrite p n b).turns = s.turns := rfl

@[simp] theorem State.pinWrite_tick (s : State) (p n : Byte) (b : Bool) : (s.pinWrite p n b).tick = s.tick := rfl

@[simp] theorem State.pinWrite_epoch (s : State) (p n : Byte) (b : Bool) : (s.pinWrite p n b).epoch = s.epoch := rfl

@[simp] theorem State.pinWrite_lnk (s : State) (p n : Byte) (b : Bool) : (s.pinWrite p n b).lnk = s.lnk := rfl

/-! A session initialised (R168). -/

@[simp] theorem State.setInit_params (s : State) (x : Session) : (s.setInit x).params = s.params := rfl

@[simp] theorem State.setInit_chans (s : State) (x : Session) : (s.setInit x).chans = s.chans := rfl

@[simp] theorem State.setInit_pins (s : State) (x : Session) : (s.setInit x).pins = s.pins := rfl

@[simp] theorem State.setInit_mode (s : State) (x : Session) : (s.setInit x).mode = s.mode := rfl

@[simp] theorem State.setInit_pc (s : State) (x : Session) : (s.setInit x).pc = s.pc := rfl

@[simp] theorem State.setInit_latches (s : State) (x : Session) : (s.setInit x).latches = s.latches := rfl

@[simp] theorem State.setInit_hdr (s : State) (x : Session) : (s.setInit x).hdr = s.hdr := rfl

@[simp] theorem State.setInit_result (s : State) (x : Session) : (s.setInit x).result = s.result := rfl

@[simp] theorem State.setInit_faultCode (s : State) (x : Session) : (s.setInit x).faultCode = s.faultCode := rfl

@[simp] theorem State.setInit_faultInfo (s : State) (x : Session) : (s.setInit x).faultInfo = s.faultInfo := rfl

@[simp] theorem State.setInit_polls (s : State) (x : Session) : (s.setInit x).polls = s.polls := rfl

@[simp] theorem State.setInit_inits (s : State) (x : Session) : (s.setInit x).inits = insertSession x s.inits := rfl

@[simp] theorem State.setInit_trace (s : State) (x : Session) : (s.setInit x).trace = s.trace := rfl

@[simp] theorem State.setInit_mem (s : State) (x : Session) : (s.setInit x).mem = s.mem := rfl

@[simp] theorem State.setInit_devices (s : State) (x : Session) : (s.setInit x).devices = s.devices := rfl

@[simp] theorem State.setInit_inbox (s : State) (x : Session) : (s.setInit x).inbox = s.inbox := rfl

@[simp] theorem State.setInit_turns (s : State) (x : Session) : (s.setInit x).turns = s.turns := rfl

@[simp] theorem State.setInit_tick (s : State) (x : Session) : (s.setInit x).tick = s.tick := rfl

@[simp] theorem State.setInit_epoch (s : State) (x : Session) : (s.setInit x).epoch = s.epoch := rfl

@[simp] theorem State.setInit_lnk (s : State) (x : Session) : (s.setInit x).lnk = s.lnk := rfl

/-! A cell of HDR written (R165). -/

@[simp] theorem State.setHdr_params (s : State) (i : Nat) (v : Half) : (s.setHdr i v).params = s.params := rfl

@[simp] theorem State.setHdr_chans (s : State) (i : Nat) (v : Half) : (s.setHdr i v).chans = s.chans := rfl

@[simp] theorem State.setHdr_pins (s : State) (i : Nat) (v : Half) : (s.setHdr i v).pins = s.pins := rfl

@[simp] theorem State.setHdr_mode (s : State) (i : Nat) (v : Half) : (s.setHdr i v).mode = s.mode := rfl

@[simp] theorem State.setHdr_pc (s : State) (i : Nat) (v : Half) : (s.setHdr i v).pc = s.pc := rfl

@[simp] theorem State.setHdr_latches (s : State) (i : Nat) (v : Half) : (s.setHdr i v).latches = s.latches := rfl

@[simp] theorem State.setHdr_hdr (s : State) (i : Nat) (v : Half) :
    (s.setHdr i v).hdr = s.hdr.setIfInBounds i v := rfl

@[simp] theorem State.setHdr_result (s : State) (i : Nat) (v : Half) : (s.setHdr i v).result = s.result := rfl

@[simp] theorem State.setHdr_faultCode (s : State) (i : Nat) (v : Half) :
    (s.setHdr i v).faultCode = s.faultCode := rfl

@[simp] theorem State.setHdr_faultInfo (s : State) (i : Nat) (v : Half) :
    (s.setHdr i v).faultInfo = s.faultInfo := rfl

@[simp] theorem State.setHdr_polls (s : State) (i : Nat) (v : Half) : (s.setHdr i v).polls = s.polls := rfl

@[simp] theorem State.setHdr_inits (s : State) (i : Nat) (v : Half) : (s.setHdr i v).inits = s.inits := rfl

@[simp] theorem State.setHdr_trace (s : State) (i : Nat) (v : Half) : (s.setHdr i v).trace = s.trace := rfl

@[simp] theorem State.setHdr_mem (s : State) (i : Nat) (v : Half) : (s.setHdr i v).mem = s.mem := rfl

@[simp] theorem State.setHdr_devices (s : State) (i : Nat) (v : Half) : (s.setHdr i v).devices = s.devices := rfl

@[simp] theorem State.setHdr_inbox (s : State) (i : Nat) (v : Half) : (s.setHdr i v).inbox = s.inbox := rfl

@[simp] theorem State.setHdr_turns (s : State) (i : Nat) (v : Half) : (s.setHdr i v).turns = s.turns := rfl

@[simp] theorem State.setHdr_tick (s : State) (i : Nat) (v : Half) : (s.setHdr i v).tick = s.tick := rfl

@[simp] theorem State.setHdr_epoch (s : State) (i : Nat) (v : Half) : (s.setHdr i v).epoch = s.epoch := rfl

@[simp] theorem State.setHdr_lnk (s : State) (i : Nat) (v : Half) : (s.setHdr i v).lnk = s.lnk := rfl

/-! A turn spent. -/

@[simp] theorem State.spendTurn_params (s : State) : s.spendTurn.params = s.params := rfl

@[simp] theorem State.spendTurn_chans (s : State) : s.spendTurn.chans = s.chans := rfl

@[simp] theorem State.spendTurn_pins (s : State) : s.spendTurn.pins = s.pins := rfl

@[simp] theorem State.spendTurn_mode (s : State) : s.spendTurn.mode = s.mode := rfl

@[simp] theorem State.spendTurn_pc (s : State) : s.spendTurn.pc = s.pc := rfl

@[simp] theorem State.spendTurn_latches (s : State) : s.spendTurn.latches = s.latches := rfl

@[simp] theorem State.spendTurn_hdr (s : State) : s.spendTurn.hdr = s.hdr := rfl

@[simp] theorem State.spendTurn_result (s : State) : s.spendTurn.result = s.result := rfl

@[simp] theorem State.spendTurn_faultCode (s : State) : s.spendTurn.faultCode = s.faultCode := rfl

@[simp] theorem State.spendTurn_faultInfo (s : State) : s.spendTurn.faultInfo = s.faultInfo := rfl

@[simp] theorem State.spendTurn_polls (s : State) : s.spendTurn.polls = s.polls := rfl

@[simp] theorem State.spendTurn_inits (s : State) : s.spendTurn.inits = s.inits := rfl

@[simp] theorem State.spendTurn_trace (s : State) : s.spendTurn.trace = s.trace := rfl

@[simp] theorem State.spendTurn_mem (s : State) : s.spendTurn.mem = s.mem := rfl

@[simp] theorem State.spendTurn_devices (s : State) : s.spendTurn.devices = s.devices := rfl

@[simp] theorem State.spendTurn_inbox (s : State) : s.spendTurn.inbox = s.inbox := rfl

@[simp] theorem State.spendTurn_turns (s : State) : s.spendTurn.turns = s.turns.tail := rfl

@[simp] theorem State.spendTurn_tick (s : State) : s.spendTurn.tick = s.tick + 1 := rfl

@[simp] theorem State.spendTurn_epoch (s : State) : s.spendTurn.epoch = s.epoch := rfl

@[simp] theorem State.spendTurn_lnk (s : State) : s.spendTurn.lnk = s.lnk := rfl

/-! A frame completed (R193). -/

@[simp] theorem State.completeFrame_params (s : State) (c : Nat) (ch : Channel) (tx : Half) :
    (s.completeFrame c ch tx).params = s.params := rfl

@[simp] theorem State.completeFrame_chans (s : State) (c : Nat) (ch : Channel) (tx : Half) :
    (s.completeFrame c ch tx).chans = s.chans.set c (ch.completed (s.slaveAnswer c ch.wide tx &&& ch.mask)) := rfl

@[simp] theorem State.completeFrame_pins (s : State) (c : Nat) (ch : Channel) (tx : Half) :
    (s.completeFrame c ch tx).pins = s.pins := rfl

@[simp] theorem State.completeFrame_mode (s : State) (c : Nat) (ch : Channel) (tx : Half) :
    (s.completeFrame c ch tx).mode = s.mode := rfl

@[simp] theorem State.completeFrame_pc (s : State) (c : Nat) (ch : Channel) (tx : Half) :
    (s.completeFrame c ch tx).pc = s.pc := rfl

@[simp] theorem State.completeFrame_latches (s : State) (c : Nat) (ch : Channel) (tx : Half) :
    (s.completeFrame c ch tx).latches = s.latches := rfl

@[simp] theorem State.completeFrame_hdr (s : State) (c : Nat) (ch : Channel) (tx : Half) :
    (s.completeFrame c ch tx).hdr = s.hdr := rfl

@[simp] theorem State.completeFrame_result (s : State) (c : Nat) (ch : Channel) (tx : Half) :
    (s.completeFrame c ch tx).result = s.result := rfl

@[simp] theorem State.completeFrame_faultCode (s : State) (c : Nat) (ch : Channel) (tx : Half) :
    (s.completeFrame c ch tx).faultCode = s.faultCode := rfl

@[simp] theorem State.completeFrame_faultInfo (s : State) (c : Nat) (ch : Channel) (tx : Half) :
    (s.completeFrame c ch tx).faultInfo = s.faultInfo := rfl

@[simp] theorem State.completeFrame_polls (s : State) (c : Nat) (ch : Channel) (tx : Half) :
    (s.completeFrame c ch tx).polls = s.polls := rfl

@[simp] theorem State.completeFrame_inits (s : State) (c : Nat) (ch : Channel) (tx : Half) :
    (s.completeFrame c ch tx).inits = s.inits := rfl

@[simp] theorem State.completeFrame_trace (s : State) (c : Nat) (ch : Channel) (tx : Half) :
    (s.completeFrame c ch tx).trace = s.trace ++ [.frame c tx (s.slaveAnswer c ch.wide tx &&& ch.mask)] := rfl

@[simp] theorem State.completeFrame_mem (s : State) (c : Nat) (ch : Channel) (tx : Half) :
    (s.completeFrame c ch tx).mem = s.mem := rfl

@[simp] theorem State.completeFrame_devices (s : State) (c : Nat) (ch : Channel) (tx : Half) :
    (s.completeFrame c ch tx).devices = s.devices.map (Device.hearFrame s c ch.wide tx) := rfl

@[simp] theorem State.completeFrame_inbox (s : State) (c : Nat) (ch : Channel) (tx : Half) :
    (s.completeFrame c ch tx).inbox = s.inbox := rfl

@[simp] theorem State.completeFrame_turns (s : State) (c : Nat) (ch : Channel) (tx : Half) :
    (s.completeFrame c ch tx).turns = s.turns := rfl

@[simp] theorem State.completeFrame_tick (s : State) (c : Nat) (ch : Channel) (tx : Half) :
    (s.completeFrame c ch tx).tick = s.tick := rfl

@[simp] theorem State.completeFrame_epoch (s : State) (c : Nat) (ch : Channel) (tx : Half) :
    (s.completeFrame c ch tx).epoch = s.epoch := rfl

@[simp] theorem State.completeFrame_lnk (s : State) (c : Nat) (ch : Channel) (tx : Half) :
    (s.completeFrame c ch tx).lnk = c := rfl

/-! A step of the supplied relation (R206). -/

@[simp] theorem State.linkOtherStep_params (s : State) (c : Nat) (ch : Channel) (e : LinkEffect) :
    (s.linkOtherStep c ch e).params = s.params := rfl

@[simp] theorem State.linkOtherStep_chans (s : State) (c : Nat) (ch : Channel) (e : LinkEffect) :
    (s.linkOtherStep c ch e).chans = s.chans.set c { e.chan with ctrl1 := ch.ctrl1, ctrl2 := ch.ctrl2 } := rfl

@[simp] theorem State.linkOtherStep_pins (s : State) (c : Nat) (ch : Channel) (e : LinkEffect) :
    (s.linkOtherStep c ch e).pins = s.pins := rfl

@[simp] theorem State.linkOtherStep_mode (s : State) (c : Nat) (ch : Channel) (e : LinkEffect) :
    (s.linkOtherStep c ch e).mode = s.mode := rfl

@[simp] theorem State.linkOtherStep_pc (s : State) (c : Nat) (ch : Channel) (e : LinkEffect) :
    (s.linkOtherStep c ch e).pc = s.pc := rfl

@[simp] theorem State.linkOtherStep_latches (s : State) (c : Nat) (ch : Channel) (e : LinkEffect) :
    (s.linkOtherStep c ch e).latches = s.latches := rfl

@[simp] theorem State.linkOtherStep_hdr (s : State) (c : Nat) (ch : Channel) (e : LinkEffect) :
    (s.linkOtherStep c ch e).hdr = s.hdr := rfl

@[simp] theorem State.linkOtherStep_result (s : State) (c : Nat) (ch : Channel) (e : LinkEffect) :
    (s.linkOtherStep c ch e).result = s.result := rfl

@[simp] theorem State.linkOtherStep_faultCode (s : State) (c : Nat) (ch : Channel) (e : LinkEffect) :
    (s.linkOtherStep c ch e).faultCode = s.faultCode := rfl

@[simp] theorem State.linkOtherStep_faultInfo (s : State) (c : Nat) (ch : Channel) (e : LinkEffect) :
    (s.linkOtherStep c ch e).faultInfo = s.faultInfo := rfl

@[simp] theorem State.linkOtherStep_polls (s : State) (c : Nat) (ch : Channel) (e : LinkEffect) :
    (s.linkOtherStep c ch e).polls = s.polls := rfl

@[simp] theorem State.linkOtherStep_inits (s : State) (c : Nat) (ch : Channel) (e : LinkEffect) :
    (s.linkOtherStep c ch e).inits = s.inits := rfl

@[simp] theorem State.linkOtherStep_mem (s : State) (c : Nat) (ch : Channel) (e : LinkEffect) :
    (s.linkOtherStep c ch e).mem = s.mem := rfl

@[simp] theorem State.linkOtherStep_devices (s : State) (c : Nat) (ch : Channel) (e : LinkEffect) :
    (s.linkOtherStep c ch e).devices = e.devices := rfl

@[simp] theorem State.linkOtherStep_inbox (s : State) (c : Nat) (ch : Channel) (e : LinkEffect) :
    (s.linkOtherStep c ch e).inbox = s.inbox := rfl

@[simp] theorem State.linkOtherStep_turns (s : State) (c : Nat) (ch : Channel) (e : LinkEffect) :
    (s.linkOtherStep c ch e).turns = s.turns := rfl

@[simp] theorem State.linkOtherStep_tick (s : State) (c : Nat) (ch : Channel) (e : LinkEffect) :
    (s.linkOtherStep c ch e).tick = s.tick := rfl

@[simp] theorem State.linkOtherStep_epoch (s : State) (c : Nat) (ch : Channel) (e : LinkEffect) :
    (s.linkOtherStep c ch e).epoch = s.epoch := rfl

@[simp] theorem State.linkOtherStep_lnk (s : State) (c : Nat) (ch : Channel) (e : LinkEffect) :
    (s.linkOtherStep c ch e).lnk = c := rfl

/-! HOST's reset (R240 to R246). -/

@[simp] theorem State.hostReset_params (s : State) : s.hostReset.params = s.params := rfl

@[simp] theorem State.hostReset_chans (s : State) :
    s.hostReset.chans = (List.range s.params.nCh).map (Channel.atReset (Config.resetFill (s.epoch + 1))) := rfl

@[simp] theorem State.hostReset_mode (s : State) : s.hostReset.mode = .idle := rfl

@[simp] theorem State.hostReset_pc (s : State) : s.hostReset.pc = [] := rfl

@[simp] theorem State.hostReset_latches (s : State) : s.hostReset.latches = [] := rfl

@[simp] theorem State.hostReset_result (s : State) :
    s.hostReset.result = Config.resetFill (s.epoch + 1) .result := rfl

@[simp] theorem State.hostReset_faultCode (s : State) : s.hostReset.faultCode = 0x00#8 := rfl

@[simp] theorem State.hostReset_faultInfo (s : State) : s.hostReset.faultInfo = 0x00000000#32 := rfl

@[simp] theorem State.hostReset_polls (s : State) : s.hostReset.polls = 0 := rfl

@[simp] theorem State.hostReset_inits (s : State) : s.hostReset.inits = [] := rfl

@[simp] theorem State.hostReset_trace (s : State) : s.hostReset.trace = [] := rfl

@[simp] theorem State.hostReset_mem (s : State) : s.hostReset.mem = s.mem := rfl

@[simp] theorem State.hostReset_devices (s : State) : s.hostReset.devices = s.devices := rfl

@[simp] theorem State.hostReset_inbox (s : State) : s.hostReset.inbox = s.inbox := rfl

@[simp] theorem State.hostReset_turns (s : State) : s.hostReset.turns = s.turns := rfl

@[simp] theorem State.hostReset_tick (s : State) : s.hostReset.tick = s.tick := rfl

@[simp] theorem State.hostReset_epoch (s : State) : s.hostReset.epoch = s.epoch + 1 := rfl

@[simp] theorem State.hostReset_lnk (s : State) : s.hostReset.lnk = s.lnk := rfl

/-! A return (R39, R160). -/

@[simp] theorem State.ret_params (s : State) : s.ret.params = s.params := by unfold State.ret; split <;> rfl

@[simp] theorem State.ret_chans (s : State) : s.ret.chans = s.chans := by unfold State.ret; split <;> rfl

@[simp] theorem State.ret_pins (s : State) : s.ret.pins = s.pins := by unfold State.ret; split <;> rfl

@[simp] theorem State.ret_latches (s : State) : s.ret.latches = s.latches := by unfold State.ret; split <;> rfl

@[simp] theorem State.ret_hdr (s : State) : s.ret.hdr = s.hdr := by unfold State.ret; split <;> rfl

@[simp] theorem State.ret_result (s : State) : s.ret.result = s.result := by unfold State.ret; split <;> rfl

@[simp] theorem State.ret_faultCode (s : State) : s.ret.faultCode = s.faultCode := by unfold State.ret; split <;> rfl

@[simp] theorem State.ret_faultInfo (s : State) : s.ret.faultInfo = s.faultInfo := by unfold State.ret; split <;> rfl

@[simp] theorem State.ret_polls (s : State) : s.ret.polls = s.polls := by unfold State.ret; split <;> rfl

@[simp] theorem State.ret_inits (s : State) : s.ret.inits = s.inits := by unfold State.ret; split <;> rfl

@[simp] theorem State.ret_trace (s : State) : s.ret.trace = s.trace := by unfold State.ret; split <;> rfl

@[simp] theorem State.ret_mem (s : State) : s.ret.mem = s.mem := by unfold State.ret; split <;> rfl

@[simp] theorem State.ret_devices (s : State) : s.ret.devices = s.devices := by unfold State.ret; split <;> rfl

@[simp] theorem State.ret_inbox (s : State) : s.ret.inbox = s.inbox := by unfold State.ret; split <;> rfl

@[simp] theorem State.ret_turns (s : State) : s.ret.turns = s.turns := by unfold State.ret; split <;> rfl

@[simp] theorem State.ret_tick (s : State) : s.ret.tick = s.tick := by unfold State.ret; split <;> rfl

@[simp] theorem State.ret_epoch (s : State) : s.ret.epoch = s.epoch := by unfold State.ret; split <;> rfl

@[simp] theorem State.ret_lnk (s : State) : s.ret.lnk = s.lnk := by unfold State.ret; split <;> rfl

/-- `return` to a caller: its next line is on top (R160). -/
theorem State.ret_to_caller (s : State) (f g : Frame) (rest : List Frame) (h : s.pc = f :: g :: rest) :
    s.ret = { s with pc := g.next :: rest } := by simp [State.ret, h]

/-- `return` of the bottom frame: the stack is empty and the sequencer idle (R39). -/
theorem State.ret_to_idle (s : State) (f : Frame) (h : s.pc = [f]) :
    s.ret = { s with pc := [], mode := .idle } := by simp [State.ret, h]

/-! The frame's own updates. -/

@[simp] theorem Frame.goto_op (f : Frame) (n : Nat) : (f.goto n).op = f.op := rfl

@[simp] theorem Frame.goto_line (f : Frame) (n : Nat) : (f.goto n).line = n := rfl

@[simp] theorem Frame.goto_sub (f : Frame) (n : Nat) : (f.goto n).sub = 0 := rfl

@[simp] theorem Frame.goto_idx (f : Frame) (n : Nat) : (f.goto n).idx = f.idx := rfl

@[simp] theorem Frame.goto_cfg (f : Frame) (n : Nat) : (f.goto n).cfg = f.cfg := rfl

@[simp] theorem Frame.goto_tmp (f : Frame) (n : Nat) : (f.goto n).tmp = f.tmp := rfl

@[simp] theorem Frame.next_op (f : Frame) : f.next.op = f.op := rfl

@[simp] theorem Frame.next_line (f : Frame) : f.next.line = f.line + 1 := rfl

@[simp] theorem Frame.next_sub (f : Frame) : f.next.sub = 0 := rfl

@[simp] theorem Frame.next_idx (f : Frame) : f.next.idx = f.idx := rfl

@[simp] theorem Frame.next_cfg (f : Frame) : f.next.cfg = f.cfg := rfl

@[simp] theorem Frame.next_tmp (f : Frame) : f.next.tmp = f.tmp := rfl

@[simp] theorem Frame.start_op (i : Instr) : (Frame.start i).op = i := rfl

@[simp] theorem Frame.start_line (i : Instr) : (Frame.start i).line = 1 := rfl

@[simp] theorem Frame.start_sub (i : Instr) : (Frame.start i).sub = 0 := rfl

@[simp] theorem Frame.start_idx (i : Instr) : (Frame.start i).idx = 0#16 := rfl

@[simp] theorem Frame.start_tmp (i : Instr) : (Frame.start i).tmp = 0#16 := rfl

@[simp] theorem Frame.loop_op (f : Frame) (n : Half) (a b : Nat) : (f.loop n a b).op = f.op := by
  unfold Frame.loop; split <;> rfl

@[simp] theorem Frame.loop_cfg (f : Frame) (n : Half) (a b : Nat) : (f.loop n a b).cfg = f.cfg := by
  unfold Frame.loop; split <;> rfl

@[simp] theorem Frame.loop_tmp (f : Frame) (n : Half) (a b : Nat) : (f.loop n a b).tmp = f.tmp := by
  unfold Frame.loop; split <;> rfl

@[simp] theorem Frame.loop_sub (f : Frame) (n : Half) (a b : Nat) : (f.loop n a b).sub = 0 := by
  unfold Frame.loop; split <;> rfl

end Sys2Proof.Machine
end

