-- ==== Sys2Proof/Laws/Ops.lean ====
section
/-! SUPPORT. Once for each shared operation, everything it can do when it answers a next state. -/

namespace Sys2Proof.Machine

/-! The frame of an operation -/

theorem operation_of_running {op : Instr} {line : Frame → State → Result} {s : State} {f : Frame}
    {rest : List Frame} (h : s.running f rest) : operation op line s = line f s := by
  simp [operation, h.1, h.2]

theorem operation_of_idle {op : Instr} {line : Frame → State → Result} {s : State} (h : s.mode = .idle) :
    operation op line s = if op.issuable then .next (s.accept op) else .next (s.raise .illegalCommand op.word0) := by
  simp [operation, h]

theorem operation_of_fault {op : Instr} {line : Frame → State → Result} {s : State} (h : s.mode = .fault) :
    operation op line s = .next s := by
  simp [operation, h]

/-- An operation that answers a next state was accepted, refused at the port, had nothing to do in FAULT, or ran a
line. -/
theorem operation_next {op : Instr} {line : Frame → State → Result} {s t : State}
    (h : operation op line s = .next t) :
    (s.mode = .idle ∧ op.issuable = true ∧ t = s.accept op)
      ∨ (s.mode = .idle ∧ op.issuable = false ∧ t = s.raise .illegalCommand op.word0)
      ∨ (s.mode = .fault ∧ t = s)
      ∨ ∃ f rest, s.running f rest ∧ line f s = .next t := by
  unfold operation at h
  split at h
  · rename_i hm
    split at h
    · rename_i hi
      cases h
      exact .inl ⟨hm, hi, rfl⟩
    · rename_i hi
      cases h
      exact .inr (.inl ⟨hm, by simpa using hi, rfl⟩)
  · rename_i hm
    cases h
    exact .inr (.inr (.inl ⟨hm, rfl⟩))
  · rename_i hm
    split at h
    · cases h
    · rename_i f rest hp
      exact .inr (.inr (.inr ⟨f, rest, ⟨hm, hp⟩, h⟩))

/-! Lines -/

/-- An assertion goes on or raises (R211). -/
theorem assertLine_next {cond : Bool} {x : FaultCause} {info : Word} {f : Frame} {s t : State}
    (h : assertLine cond x info f s = .next t) :
    (cond = true ∧ t = s.setTop f.next) ∨ (cond = false ∧ t = s.raise x info) := by
  unfold assertLine at h
  split at h
  · rename_i hc
    cases h
    exact .inl ⟨hc, rfl⟩
  · rename_i hc
    cases h
    exact .inr ⟨by simpa using hc, rfl⟩

/-- A register read reads an existing channel (R62). -/
theorem regRead_next {c : Nat} {r : Reg} {s t : State} {k : Half → State → Result}
    (h : regRead c r s k = .next t) :
    ∃ ch, s.chans[c]? = some ch ∧ k (ch.readValue r) (s.setChan c (ch.afterRead r)) = .next t := by
  unfold regRead at h
  split at h
  · cases h
  · rename_i ch hc
    exact ⟨ch, hc, h⟩

/-- A register write writes an existing channel, and DATA only while TXE = 1 (R62, R66). -/
theorem regWrite_next {c : Nat} {r : Reg} {v : Half} {s t : State} {k : State → Result}
    (h : regWrite c r v s k = .next t) :
    ∃ ch ch', s.chans[c]? = some ch ∧ ch.afterWrite r v = some ch' ∧ k (s.setChan c ch') = .next t := by
  unfold regWrite at h
  split at h
  · cases h
  · rename_i ch hc
    split at h
    · cases h
    · rename_i ch' hw
      exact ⟨ch, ch', hc, hw, h⟩

/-- What a register write makes of the channel (R66, R69 to R71). -/
theorem afterWrite_some {ch ch' : Channel} {r : Reg} {v : Half} (h : ch.afterWrite r v = some ch') :
    (r = .ctrl1 ∧ ch' = { ch with ctrl1 := v }) ∨ (r = .ctrl2 ∧ ch' = { ch with ctrl2 := v })
      ∨ (r = .status ∧ ch' = ch) ∨ (r = .data ∧ ch.txe = true ∧ ch' = ch.afterDataWrite v) := by
  cases r <;> simp [Channel.afterWrite] at h
  · exact .inl ⟨rfl, h.symm⟩
  · exact .inr (.inl ⟨rfl, h.symm⟩)
  · exact .inr (.inr (.inl ⟨rfl, h.symm⟩))
  · exact .inr (.inr (.inr ⟨rfl, h.1, h.2.symm⟩))

/-- A poll passes, holds, is counted, or reaches the bound (R131, R217). -/
theorem waitUntil_next {c : Nat} {fl : Flag} {v : Bool} {f : Frame} {s t : State}
    (h : waitUntil c fl v f s = .next t) :
    ∃ ch, s.chans[c]? = some ch ∧
      ((ch.flag fl = v ∧ t = { (s.setChan c ch.afterStatusRead).setTop f.next with polls := 0 })
        ∨ (ch.flag fl ≠ v ∧ s.params.waitBound = none ∧ t = s.setChan c ch.afterStatusRead)
        ∨ (ch.flag fl ≠ v ∧ (∃ b, s.params.waitBound = some b ∧ ¬ b ≤ s.polls + 1)
            ∧ t = { s.setChan c ch.afterStatusRead with polls := s.polls + 1 })
        ∨ (ch.flag fl ≠ v ∧ (∃ b, s.params.waitBound = some b ∧ b ≤ s.polls + 1)
            ∧ t = s.raise .peripheralTimeout (BitVec.ofNat 32 c))) := by
  unfold waitUntil at h
  split at h
  · cases h
  · rename_i ch hc
    refine ⟨ch, hc, ?_⟩
    dsimp only at h
    split at h
    · rename_i hf
      cases h
      exact .inl ⟨hf, rfl⟩
    · rename_i hf
      split at h
      · rename_i hb
        cases h
        exact .inr (.inl ⟨hf, hb, rfl⟩)
      · rename_i b hb
        split at h
        · rename_i hle
          cases h
          exact .inr (.inr (.inr ⟨hf, ⟨b, hb, hle⟩, rfl⟩))
        · rename_i hle
          cases h
          exact .inr (.inr (.inl ⟨hf, ⟨b, hb, hle⟩, rfl⟩))

/-- A raw read goes to a register of the block or to the platform memory (R63, U2). -/
theorem memRead_next {a : Word} {s t : State} {k : Word → State → Result} (h : memRead a s k = .next t) :
    rawAligned a = true ∧
      ((∃ c r ch, locate s.params a = some (c, r) ∧ s.chans[c]? = some ch
          ∧ k (ch.readValue r).toWord (s.setChan c (ch.afterRead r)) = .next t)
        ∨ (locate s.params a = none ∧ s.params.platform = true ∧ k (s.mem.word a.toNat) s = .next t)) := by
  unfold memRead at h
  split at h
  · rename_i ha
    refine ⟨ha, ?_⟩
    split at h
    · rename_i c r hl
      obtain ⟨ch, hc, hk⟩ := regRead_next h
      exact .inl ⟨c, r, ch, hl, hc, hk⟩
    · rename_i hl
      split at h
      · rename_i hp
        exact .inr ⟨hl, hp, h⟩
      · cases h
  · cases h

/-- A raw write goes to a register of the block or to the platform memory (R63, U2). -/
theorem memWrite_next {a v : Word} {s t : State} {k : State → Result} (h : memWrite a v s k = .next t) :
    rawAligned a = true ∧
      ((∃ c r ch ch', locate s.params a = some (c, r) ∧ s.chans[c]? = some ch
          ∧ ch.afterWrite r v.lowHalf = some ch' ∧ k (s.setChan c ch') = .next t)
        ∨ (locate s.params a = none ∧ s.params.platform = true
            ∧ k { s with mem := s.mem.putWord a.toNat v } = .next t)) := by
  unfold memWrite at h
  split at h
  · rename_i ha
    refine ⟨ha, ?_⟩
    split at h
    · rename_i c r hl
      obtain ⟨ch, ch', hc, hw, hk⟩ := regWrite_next h
      exact .inl ⟨c, r, ch, ch', hl, hc, hw, hk⟩
    · rename_i hl
      split at h
      · rename_i hp
        exact .inr ⟨hl, hp, h⟩
      · cases h
  · cases h

/-- The loop head starts the index, on an existing channel (R138, R141, R206). -/
theorem loopHead_next {ch : Byte} {f : Frame} {s t : State} (h : loopHead ch f s = .next t) :
    (∃ c, s.chans[ch.toNat]? = some c ∧ ¬ (c.linkOpen = true ∧ s.params.linkOther = .refuse))
      ∧ t = s.setTop { f.next with idx := 0#16 } := by
  unfold loopHead at h
  split at h
  · cases h
  · rename_i c hc
    split at h
    · cases h
    · rename_i hn
      cases h
      exact ⟨⟨c, hc, hn⟩, rfl⟩

/-- The cell read goes to the frame (R138 line 6). -/
theorem fetchCell_next {buf : Word} {f : Frame} {s t : State} (h : fetchCell buf f s = .next t) :
    ∃ e, s.bufRead buf f.idx.toNat = some e ∧ t = s.setTop { f.next with tmp := e } := by
  unfold fetchCell at h
  split at h
  · cases h
  · rename_i e he
    cases h
    exact ⟨e, he, rfl⟩

/-- A cell written is the internal buffer's or HOST's, within its capacity (R64). -/
theorem bufWrite_some {s t : State} {ref : Word} {i : Nat} {v : Half} (h : s.bufWrite ref i v = some t) :
    (ref = s.params.hdrRef ∧ i < 2 ∧ t = { s with hdr := s.hdr.setIfInBounds i v })
      ∨ (ref ≠ s.params.hdrRef ∧ i < (s.mem.cells ref).length
          ∧ t = { s with mem := s.mem.putCells ref ((s.mem.cells ref).set i v) }) := by
  unfold State.bufWrite at h
  split at h
  · rename_i hr
    split at h
    · rename_i hi
      cases h
      exact .inl ⟨hr, hi, rfl⟩
    · cases h
  · rename_i hr
    split at h
    · rename_i hi
      cases h
      exact .inr ⟨hr, hi, rfl⟩
    · cases h

/-- The received word goes to its cell, and the loop goes on (R141 line 8). -/
theorem storeCell_next {count : Half} {buf : Word} {f : Frame} {s t : State}
    (h : storeCell count buf f s = .next t) :
    ∃ s', s.bufWrite buf f.idx.toNat f.tmp = some s' ∧ t = s'.setTop (f.loop count 5 9) := by
  unfold storeCell at h
  split at h
  · cases h
  · rename_i s' hs
    cases h
    exact ⟨s', hs, rfl⟩

/-- The record read goes to the frame (R133 line 2). -/
theorem initRecord_next {table : Word} {f : Frame} {s t : State} (h : initRecord table f s = .next t) :
    table ≠ 0#32 ∧ ∃ cfg, s.cfgRead table f.idx.toNat = some cfg ∧ t = s.setTop { f.next with cfg := cfg } := by
  unfold initRecord at h
  split at h
  · cases h
  · rename_i ht
    split at h
    · cases h
    · rename_i cfg hc
      cases h
      exact ⟨ht, cfg, hc, rfl⟩

/-- A control register is read without effect (R70, R71). -/
theorem Channel.afterRead_field (ch : Channel) (fld : Field) : ch.afterRead fld.reg = ch := by
  cases fld <;> rfl

/-- A step of SPI_INIT's lines 5 to 12: EnumRange, the read half, or the write half of a RegField (R82, R133, R214). -/
theorem initLine_next {count : Half} {f : Frame} {s t : State} (h : initLine count f s = .next t) :
    (initFields f.line f.cfg = none ∧ t = s.raise .enumRange (initCode f.line f.cfg).toWord)
      ∨ ∃ fields fld v ch, initFields f.line f.cfg = some fields ∧ fields[f.sub / 2]? = some (fld, v)
          ∧ s.chans[f.cfg.channel.toNat]? = some ch
          ∧ ((f.sub % 2 = 0
                ∧ t = (s.setChan f.cfg.channel.toNat ch).setTop
                    { f with sub := f.sub + 1, tmp := ch.readValue fld.reg })
            ∨ (f.sub % 2 ≠ 0 ∧ ∃ ch', ch.afterWrite fld.reg (fld.insert f.tmp v) = some ch'
                ∧ t = (s.setChan f.cfg.channel.toNat ch').setTop (initAfter count fields.length f))) := by
  unfold initLine at h
  split at h
  · rename_i hf
    cases h
    exact .inl ⟨hf, rfl⟩
  · rename_i fields hf
    split at h
    · cases h
    · rename_i fld v hs
      refine .inr ?_
      split at h
      · rename_i hm
        obtain ⟨ch, hc, hk⟩ := regRead_next h
        rw [Channel.afterRead_field] at hk
        cases hk
        exact ⟨fields, fld, v, ch, hf, hs, hc, .inl ⟨hm, rfl⟩⟩
      · rename_i hm
        obtain ⟨ch, ch', hc, hw, hk⟩ := regWrite_next h
        cases hk
        exact ⟨fields, fld, v, ch, hf, hs, hc, .inr ⟨hm, ch', hw, rfl⟩⟩

/-- A step of a chip-select operation (R162, R163). -/
theorem chipSelect_next {level : Bool} {port pin : Byte} {f : Frame} {s t : State}
    (h : chipSelect level port pin f s = .next t) :
    (f.line = 1 ∧ assertLine (portOk port) .portRange port.toWord f s = .next t)
      ∨ (f.line = 2 ∧ assertLine (s.pinOk port pin) .pinRange pin.toWord f s = .next t)
      ∨ (f.line = 3 ∧ t = (s.pinWrite port pin level).setTop f.next)
      ∨ (f.line = 4 ∧ t = s.ret) := by
  unfold chipSelect at h
  split at h
  · rename_i hl
    exact .inl ⟨hl, h⟩
  · rename_i hl
    exact .inr (.inl ⟨hl, h⟩)
  · rename_i hl
    cases h
    exact .inr (.inr (.inl ⟨hl, rfl⟩))
  · rename_i hl
    cases h
    exact .inr (.inr (.inr ⟨hl, rfl⟩))
  · cases h

/-- The header line stores the header of a usable address (R161, R165, R171). -/
theorem headerLine_next {addr hdr : Byte} {f : Frame} {s t : State} (h : headerLine addr hdr f s = .next t) :
    deviceAddressOk addr = true ∧ t = (s.setHdr 0 hdr.toHalf).setTop f.next := by
  unfold headerLine at h
  split at h
  · rename_i ha
    cases h
    exact ⟨ha, rfl⟩
  · cases h

/-- A header byte completes the frame in flight on the moving link's channel, or there is none (R193, R199). -/
theorem headerFrame_next {b : Byte} {s t : State} (h : headerFrame b s = .next t) :
    t = s ∨ ∃ ch, s.chans[s.lnk]? = some ch ∧ ch.completeEnabled = true ∧ ch.wide = false
      ∧ t = s.completeFrame s.lnk ch b.toHalf := by
  unfold headerFrame at h
  split at h
  · cases h
    exact .inl rfl
  · rename_i ch hc
    split at h
    · rename_i he
      cases h
      simp only [Bool.and_eq_true, Bool.not_eq_true'] at he
      exact .inr ⟨ch, hc, he.1, he.2, rfl⟩
    · cases h
      exact .inl rfl

/-- A header frame always answers a next state. -/
theorem headerFrame_total (b : Byte) (s : State) : ∃ t, headerFrame b s = .next t := by
  unfold headerFrame
  split
  · exact ⟨_, rfl⟩
  · split <;> exact ⟨_, rfl⟩

/-- Every header form is a header frame (R110). -/
theorem exec_decodeHeader (b : Byte) (s : State) :
    ∃ b', encode (decodeHeader b) = .header b' ∧ exec (decodeHeader b) s = headerFrame b' s := by
  unfold decodeHeader
  split <;> exact ⟨_, rfl, rfl⟩

/-! Agents -/

/-- HOST's turn: nothing, or an act that can take place (R6, R240). -/
theorem hostStep_next {s t : State} (h : hostStep s = .next t) :
    t = s ∨ ∃ a rest, s.inbox = a :: rest ∧ s.actAllowed a = true ∧ hostAct a { s with inbox := rest } = .next t := by
  unfold hostStep at h
  split at h
  · cases h
    exact .inl rfl
  · rename_i a rest hi
    split at h
    · rename_i ha
      exact .inr ⟨a, rest, hi, ha, h⟩
    · cases h
      exact .inl rfl

/-- SEQ's turn: nothing outside RUN, a step of the top frame's operation in it (R37, R39). -/
theorem seqStep_next {s t : State} (h : seqStep s = .next t) :
    (s.mode ≠ .run ∧ t = s) ∨ ∃ f rest, s.running f rest ∧ exec f.op s = .next t := by
  unfold seqStep at h
  split at h
  · rename_i hm
    cases h
    exact .inl ⟨by simp [hm], rfl⟩
  · rename_i hm
    cases h
    exact .inl ⟨by simp [hm], rfl⟩
  · rename_i hm
    split at h
    · cases h
    · rename_i f rest hp
      exact .inr ⟨f, rest, ⟨hm, hp⟩, h⟩

/-- LINK[c]'s turn: nothing, LINK_START, LINK_COMPLETE as a header form or as another frame, or the supplied relation
(R190 to R193, R206). -/
theorem linkStep_next {c : Nat} {s t : State} (h : linkStep c s = .next t) :
    t = s ∨ ∃ ch, s.chans[c]? = some ch ∧
      ((ch.startEnabled = true ∧ t = { s.setChan c ch.started with lnk := c })
        ∨ (ch.completeEnabled = true ∧ ch.wide = false ∧ s.headerDue c = true
            ∧ exec (decodeHeader ch.shift.lowByte) { s with lnk := c } = .next t)
        ∨ (ch.completeEnabled = true ∧ t = s.completeFrame c ch (ch.shift &&& ch.mask))
        ∨ (ch.startEnabled = false ∧ ch.completeEnabled = false
            ∧ ∃ e, s.linkOtherEffect c ch = some e ∧ t = s.linkOtherStep c ch e)) := by
  unfold linkStep at h
  split at h
  · cases h
    exact .inl rfl
  · rename_i ch hc
    split at h
    · rename_i hs
      cases h
      exact .inr ⟨ch, hc, .inl ⟨hs, rfl⟩⟩
    · rename_i hs
      split at h
      · rename_i he
        split at h
        · rename_i hd
          simp only [Bool.and_eq_true, Bool.not_eq_true'] at hd
          exact .inr ⟨ch, hc, .inr (.inl ⟨he, hd.2, hd.1, h⟩)⟩
        · cases h
          exact .inr ⟨ch, hc, .inr (.inr (.inl ⟨he, rfl⟩))⟩
      · rename_i he
        split at h
        · cases h
          exact .inl rfl
        · rename_i e hoe
          cases h
          exact .inr ⟨ch, hc, .inr (.inr (.inr ⟨by simpa using hs, by simpa using he, e, hoe, rfl⟩))⟩

/-- A step: nobody moves, or the agent whose turn it is (R79, R198). -/
theorem step_next {s t : State} (h : step s = .next t) :
    (s.nextTurn = none ∧ t = s.spendTurn) ∨ ∃ a, s.nextTurn = some a ∧ agentStep a s.spendTurn = .next t := by
  unfold step at h
  split at h
  · rename_i hn
    cases h
    exact .inl ⟨hn, rfl⟩
  · rename_i a hn
    exact .inr ⟨a, hn, h⟩

/-- Something may come next in every state: SEQ's step in RUN, nothing outside it (R78, R198). -/
theorem State.choices_ne_nil (s : State) : s.choices ≠ [] := by
  unfold State.choices State.readyTurns
  by_cases hm : s.mode = .run <;> simp [hm]

/-- A schedule decides who moves (R79). -/
theorem State.nextTurn_of_turns {s : State} {t : Turn} {more : List Turn} (h : s.turns = t :: more) :
    s.nextTurn = some t := by
  simp [State.nextTurn, h]

/-- Without a schedule what comes next is one of the choices (R79, R198). -/
theorem State.nextTurn_mem_choices {s : State} (h : s.turns = []) : s.nextTurn ∈ s.choices := by
  have hn := s.choices_ne_nil
  simp only [State.nextTurn, h]
  split
  · rename_i x hx
    simp [hx]
  · have hl : Config.pick s.tick % s.choices.length < s.choices.length :=
      Nat.mod_lt _ (List.length_pos_iff.mpr hn)
    simp [List.getElem?_eq_getElem hl]

/-- A fault leaves every operand latch at its value (R222). -/
theorem State.raise_latched (s : State) (x : FaultCause) (info : Word) : (s.raise x info).latched = s.latched := rfl

/-- Under `LINK_OTHER = refuse` the link has no step in the open configurations (R206). -/
theorem linkOtherEffect_refuse {s : State} (h : s.params.linkOther = .refuse) (c : Nat) (ch : Channel) :
    s.linkOtherEffect c ch = none := by
  simp [State.linkOtherEffect, h]

/-! One channel's flags -/

theorem Channel.afterStatusRead_ctrl1 (ch : Channel) : ch.afterStatusRead.ctrl1 = ch.ctrl1 := by
  unfold Channel.afterStatusRead; split <;> rfl

theorem Channel.afterStatusRead_ctrl2 (ch : Channel) : ch.afterStatusRead.ctrl2 = ch.ctrl2 := by
  unfold Channel.afterStatusRead; split <;> rfl

/-- A read of STATUS changes nothing but OVR and OVR_ARM, and nothing at all unless armed (R68). -/
theorem Channel.afterStatusRead_of_unarmed (ch : Channel) (h : ch.ovrArm = false) : ch.afterStatusRead = ch := by
  simp [Channel.afterStatusRead, h]

end Sys2Proof.Machine
end

