-- ==== Sys2Proof/Laws/PerInstr.lean ====
section
/-! SUPPORT. What holds of every instruction as syntax, one lemma for each constructor: the opcode and the length of its
descriptor are those of the opcode map (R91, R92); a wire form is one header byte and no command (R110). -/

namespace Sys2Proof.Laws.Opcode

/-- The low byte of a descriptor's first word is the byte put there. -/
theorem lowByte_append (x y : BitVec 16) (b1 b0 : Byte) (h : y = b1 ++ b0) :
    (x ++ y : BitVec (16 + 16)).extractLsb' 0 8 = b0 := by
  subst h
  apply BitVec.eq_of_getLsbD_eq
  intro i hi
  have hy : (b1 ++ b0 : BitVec (8 + 8)).getLsbD i = b0.getLsbD i := by rw [BitVec.getLsbD_append]; simp [hi]
  have hx := BitVec.getLsbD_append (x := x) (y := (b1 ++ b0 : BitVec (8 + 8))) (i := i)
  rw [if_pos (show i < 8 + 8 by omega)] at hx
  rw [BitVec.getLsbD_extractLsb', Nat.zero_add]
  simp only [hi, decide_true, Bool.true_and]
  exact hx.trans hy

theorem lowByte_wordOfHalf (h : Half) (b1 b0 : Byte) : (wordOfHalf h b1 b0).extractLsb' 0 8 = b0 :=
  lowByte_append h (b1 ++ b0) b1 b0 rfl

theorem lowByte_wordOfBytes (b3 b2 b1 b0 : Byte) : (wordOfBytes b3 b2 b1 b0).extractLsb' 0 8 = b0 :=
  lowByte_append (b3 ++ b2) (b1 ++ b0) b1 b0 rfl

/-- A command's words begin with its opcode and are as many as the map says; a wire form has no opcode and is never
issued. -/
def Statement (i : Instr) : Prop :=
  match encode i with
  | .words ws => ∃ opc, i.opcode = some opc ∧ (Descriptor.ofWords ws).word0.extractLsb' 0 8 = opc
      ∧ descriptorLength opc = some ws.length
  | .header _ => i.opcode = none ∧ i.issuable = false

theorem spiInit (count : Half) (table : Word) : Statement (.spiInit count table) :=
  ⟨_, rfl, lowByte_wordOfHalf _ _ _, rfl⟩

theorem spiTransfer (ch : Byte) (count : Half) (buf : Word) : Statement (.spiTransfer ch count buf) :=
  ⟨_, rfl, lowByte_wordOfHalf _ _ _, rfl⟩

theorem spiReceive (ch : Byte) (count : Half) (buf : Word) : Statement (.spiReceive ch count buf) :=
  ⟨_, rfl, lowByte_wordOfHalf _ _ _, rfl⟩

theorem spiRegWrite (addr value : Word) : Statement (.spiRegWrite addr value) :=
  ⟨_, rfl, (by decide : (0x00000004#32 : Word).extractLsb' 0 8 = 0x04#8), rfl⟩

theorem spiRegRead (addr : Word) : Statement (.spiRegRead addr) :=
  ⟨_, rfl, (by decide : (0x00000005#32 : Word).extractLsb' 0 8 = 0x05#8), rfl⟩

theorem accInit (ch port pin : Byte) : Statement (.accInit ch port pin) :=
  ⟨_, rfl, lowByte_wordOfBytes _ _ _ _, rfl⟩

theorem accWrite (ch port pin addr value : Byte) : Statement (.accWrite ch port pin addr value) :=
  ⟨_, rfl, lowByte_wordOfBytes _ _ _ _, rfl⟩

theorem accRead (ch port pin addr : Byte) (count : Half) (buf : Word) :
    Statement (.accRead ch port pin addr count buf) :=
  ⟨_, rfl, lowByte_wordOfBytes _ _ _ _, rfl⟩

theorem csAssert (port pin : Byte) : Statement (.csAssert port pin) :=
  ⟨_, rfl, lowByte_wordOfBytes _ _ _ _, rfl⟩

theorem csDeassert (port pin : Byte) : Statement (.csDeassert port pin) :=
  ⟨_, rfl, lowByte_wordOfBytes _ _ _ _, rfl⟩

theorem wireWriteMb (a : BitVec 6) : Statement (.wireWriteMb a) := ⟨rfl, rfl⟩

theorem wireReadMb (a : BitVec 6) : Statement (.wireReadMb a) := ⟨rfl, rfl⟩

theorem wireWriteSb (a : BitVec 6) : Statement (.wireWriteSb a) := ⟨rfl, rfl⟩

theorem wireReadSb (a : BitVec 6) : Statement (.wireReadSb a) := ⟨rfl, rfl⟩

end Sys2Proof.Laws.Opcode
end

