-- ==== Sys2Proof/Tests/Slice0.lean ====
section
/-! SUPPORT. Tests on fixed values, their results taken from the spec's vectors (95_test_vectors.md) or worked out by hand
from its rules, and for every statement that has hypotheses a concrete state and operands that meet them together. -/

namespace Sys2Proof.Tests
open Sys2Proof.Machine

/-! Small states -/

/-- Channel 0 as V-INIT-1 leaves it, idle. -/
def chan0 : Channel := ⟨0x035F#16, 0x0000#16, false, true, false, false, 0#16, 0#16, 0#16, false, false⟩

/-- The record of V-INIT-1. -/
def record0 : CfgRecord := ⟨0#8, 3#8, 1#8, 3#8, 0#8, 0#8, 0#8, 0#8⟩

/-- The host memory of 95_test_vectors.md part 3. -/
def hostMem : Memory :=
  ⟨[(0x20000100, [0x00A1#16, 0x00B2#16, 0x00C3#16]), (0x20000200, [0#16, 0#16, 0#16, 0#16, 0#16, 0#16])],
    [(0x20000000, [record0])], []⟩

/-- An idle block whose channel 0 is `ch`. -/
def idle (ch : Channel) : State := { State.reset with chans := [ch, chan0], mem := hostMem }

/-- An operation at a line. -/
def frame (i : Instr) (n : Nat) : Frame := { Frame.start i with line := n }

/-- The sequencer at an operation's line. -/
def running (s : State) (f : Frame) : State := { s with mode := .run, pc := [f] }

/-- What a next state shows. -/
def got {α : Type} (g : State → α) : Result → Option α
  | .next t => some (g t)
  | .fault _ => none
  | .refused _ => none

/-- The step answers a next state. -/
def isNext : Result → Bool
  | .next _ => true
  | .fault _ => false
  | .refused _ => false

/-- The step is refused for this reason. -/
def isRefused (r : Refusal) : Result → Bool
  | .next _ => false
  | .fault _ => false
  | .refused r' => r' == r

theorem exists_next {r : Result} (h : isNext r = true) : ∃ t, r = .next t := by
  cases r with
  | next t => exact ⟨t, rfl⟩
  | fault _ => cases h
  | refused _ => cases h

/-- The state a run ends in. -/
def ended (n : Nat) (s : State) : State := ((got id (Host.Core.run core n s)).getD s)

theorem run_ended {n : Nat} {s : State} (h : isNext (Host.Core.run core n s) = true) :
    Host.Core.run core n s = .next (ended n s) := by
  unfold ended
  revert h
  cases Host.Core.run core n s with
  | next t => intro _; rfl
  | fault _ => intro h; cases h
  | refused _ => intro h; cases h

/-- Up to `n` steps the stack stays above a depth. -/
def staysAbove (depth : Nat) (s : State) (n : Nat) : Bool :=
  (List.range n).all (fun m => (got (fun u => decide (depth < u.pc.length)) (Host.Core.run core m s)).getD true)

theorem firstReturn_ended {n depth : Nat} {s : State} (h : isNext (Host.Core.run core n s) = true)
    (hd : (ended n s).pc.length ≤ depth) (hs : staysAbove depth s n = true) :
    firstReturn s (ended n s) n depth := by
  refine ⟨run_ended h, hd, fun m u hm hu => ?_⟩
  have := List.all_eq_true.mp hs m (List.mem_range.mpr hm)
  simpa [hu, got] using this

theorem standard_legal : Params.standard.legal = true := by decide

theorem hostMem_wf : hostMem.wf = true := by decide

/-! Ill-formed instructions -/

theorem test_wf_null_table : Instr.wellFormed (.spiInit 1#16 0#32) = false := by decide
theorem test_wf_no_record : Instr.wellFormed (.spiInit 0#16 0#32) = true := by decide
theorem test_wf_write_misaligned : Instr.wellFormed (.spiRegWrite 0x40013002#32 0#32) = false := by decide
theorem test_wf_read_misaligned : Instr.wellFormed (.spiRegRead 0x40013001#32) = false := by decide
theorem test_wf_acc_write_address : Instr.wellFormed (.accWrite 0#8 0#8 4#8 0x40#8 0#8) = false := by decide
theorem test_wf_acc_read_address : Instr.wellFormed (.accRead 0#8 0#8 4#8 0x40#8 1#16 1#32) = false := by decide

/-! Decoding: V-ENC-1 to V-ENC-15, and the header bytes of 2.2 -/

theorem test_enc_1 : decode ⟨0x00010001#32, 0x20000000#32, 0#32⟩ = .ok (.spiInit 1#16 0x20000000#32) := by decide
theorem test_enc_3 : decode ⟨0x00030002#32, 0x20000100#32, 0#32⟩
    = .ok (.spiTransfer 0#8 3#16 0x20000100#32) := by decide
theorem test_enc_4 : decode ⟨0x00020102#32, 0x20000100#32, 0#32⟩
    = .ok (.spiTransfer 1#8 2#16 0x20000100#32) := by decide
theorem test_enc_6 : decode ⟨0xFFFF0003#32, 0x20000200#32, 0#32⟩
    = .ok (.spiReceive 0#8 0xFFFF#16 0x20000200#32) := by decide
theorem test_enc_7 : decode ⟨0x00000004#32, 0x40013000#32, 0x0000F000#32⟩
    = .ok (.spiRegWrite 0x40013000#32 0x0000F000#32) := by decide
theorem test_enc_8 : decode ⟨0x00000005#32, 0x40013008#32, 0#32⟩ = .ok (.spiRegRead 0x40013008#32) := by decide
theorem test_enc_10 : decode ⟨0x0F040110#32, 0#32, 0#32⟩ = .ok (.accInit 1#8 4#8 15#8) := by decide
theorem test_enc_11 : decode ⟨0x0C010010#32, 0#32, 0#32⟩ = .ok (.accInit 0#8 1#8 12#8) := by decide
theorem test_enc_12 : decode ⟨0x04000012#32, 0x00060032#32, 0x20000200#32⟩
    = .ok (.accRead 0#8 0#8 4#8 0x32#8 6#16 0x20000200#32) := by decide
theorem test_enc_14 : decode ⟨0x04000011#32, 0x0000082D#32, 0#32⟩
    = .ok (.accWrite 0#8 0#8 4#8 0x2D#8 0x08#8) := by decide
theorem test_enc_15_assert : decode ⟨0x04000013#32, 0#32, 0#32⟩ = .ok (.csAssert 0#8 4#8) := by decide
theorem test_enc_15_deassert : decode ⟨0x04000014#32, 0#32, 0#32⟩ = .ok (.csDeassert 0#8 4#8) := by decide
theorem test_hdr_write : decodeHeader 0x6D#8 = .wireWriteMb 0x2D#6 := by decide
theorem test_hdr_read : decodeHeader 0xF2#8 = .wireReadMb 0x32#6 := by decide
theorem test_hdr_single_write : decodeHeader 0x32#8 = .wireWriteSb 0x32#6 := by decide
theorem test_hdr_single_read : decodeHeader 0xB2#8 = .wireReadSb 0x32#6 := by decide

/-- V-ENC-16, V-ENC-17, V-ENC-24: opcodes that are not in the map. -/
theorem test_enc_unknown :
    [0x00000000#32, 0x00000006#32, 0x000000FF#32].all
      (fun w => decode ⟨w, 0#32, 0#32⟩ == .error .unknownOpcode) = true := by decide

/-- V-ENC-21 to V-ENC-23: reserved fields that are not 0. -/
theorem test_enc_reserved :
    [Descriptor.mk 0x00010101#32 0x20000000#32 0#32, ⟨0x00000104#32, 0x40013000#32, 0#32⟩,
      ⟨0x04000012#32, 0x00060132#32, 0x20000200#32⟩].all
      (fun d => decode d == .error .reservedField) = true := by decide

/-- V-ENC-18 to V-ENC-20: an internal operation at the port raises IllegalCommand with its `word0`. -/
theorem test_internal_at_port :
    [Descriptor.mk 0x04000011#32 0x0000082D#32 0#32, ⟨0x04000013#32, 0#32, 0#32⟩, ⟨0x04000014#32, 0#32, 0#32⟩].all
      (fun d => got (fun t => (t.faultCode, t.faultInfo, t.pc)) (issue d (idle chan0))
        == some (8#8, d.word0, [])) = true := by decide

/-! SPI_INIT -/

/-- V-INIT-2, V-INIT-3, V-INIT-4, V-INIT-6: the closed form on the two control registers. -/
theorem test_init_closed_form :
    newCtrl1 0x0000#16 ⟨0#8, 0#8, 0#8, 7#8, 1#8, 1#8, 1#8, 1#8⟩ = 0x0CF8#16
      ∧ newCtrl2 0x0000#16 ⟨0#8, 0#8, 0#8, 7#8, 1#8, 1#8, 1#8, 1#8⟩ = 0x0004#16
      ∧ newCtrl2 0xFFFF#16 ⟨0#8, 0#8, 0#8, 0#8, 2#8, 0#8, 0#8, 0#8⟩ = 0xFFFB#16
      ∧ newCtrl1 0xF000#16 record0 = 0xF35F#16
      ∧ newCtrl1 0x035F#16 ⟨0#8, 0#8, 0#8, 7#8, 1#8, 1#8, 1#8, 1#8⟩ = 0x0FF8#16 := by decide

/-- V-INIT-20: a clock mode of 4 raises EnumRange. -/
theorem test_init_mode_4 :
    got (fun t => (t.mode, t.faultCode, t.faultInfo))
      (exec (.spiInit 1#16 0x20000000#32) (running (idle chan0)
        { frame (.spiInit 1#16 0x20000000#32) 5 with cfg := { record0 with mode := 4#8 } }))
      = some (.fault, 2#8, 4#32) := by decide

/-! SPI_TRANSFER and SPI_RECEIVE -/

/-- V-FLAG-9: a write of DATA clears TXE and keeps RXNE. -/
theorem test_transfer_write :
    got (fun t => (t.chans[0]?).map (fun c => (c.statusWord, c.txbuf)))
      (exec (.spiTransfer 0#8 1#16 0x20000100#32) (running (idle { chan0 with rxne := true })
        { frame (.spiTransfer 0#8 1#16 0x20000100#32) 7 with tmp := 0x00B2#16 }))
      = some (some (0x0001#16, 0x00B2#16)) := by decide

/-- V-TX-7: the third failed poll of three raises PeripheralTimeout for channel 0. -/
theorem test_transfer_timeout :
    got (fun t => (t.mode, t.faultCode, t.faultInfo))
      (exec (.spiTransfer 0#8 3#16 0x20000100#32)
        { running (idle { chan0 with ctrl1 := 0#16, txe := false }) (frame (.spiTransfer 0#8 3#16 0x20000100#32) 5) with
          params := { Params.standard with waitBound := some 3 }, polls := 2 })
      = some (.fault, 7#8, 0#32) := by decide

/-- V-RX-2: the received word goes to its cell, zero-extended. -/
theorem test_receive_cell :
    got (fun t => (t.mem.cells 0x20000200#32).take 2)
      (exec (.spiReceive 0#8 2#16 0x20000200#32) (running (idle chan0)
        { frame (.spiReceive 0#8 2#16 0x20000200#32) 8 with idx := 1#16, tmp := 0x00FF#16 }))
      = some [0x0000#16, 0x00FF#16] := by decide

/-- V-FLT-7: a count of 0. -/
theorem test_receive_count_zero :
    got (fun t => (t.mode, t.faultCode, t.faultInfo))
      (exec (.spiReceive 1#8 0#16 0x20000200#32) (running (idle chan0) (frame (.spiReceive 1#8 0#16 0x20000200#32) 2)))
      = some (.fault, 3#8, 0#32) := by decide

/-! Raw access -/

/-- V-REG-3: the high half is dropped. -/
theorem test_regwrite_ctrl1 :
    got (fun t => (t.chans[0]?).map Channel.ctrl1)
      (exec (.spiRegWrite 0x40013000#32 0x1234ABCD#32)
        (running State.reset (frame (.spiRegWrite 0x40013000#32 0x1234ABCD#32) 1)))
      = some (some 0xABCD#16) := by decide

/-- V-REG-7: a write of DATA while TXE = 0. -/
theorem test_regwrite_data_full :
    isRefused .dataWriteFull (exec (.spiRegWrite 0x4001300C#32 1#32)
      (running (idle { chan0 with txe := false }) (frame (.spiRegWrite 0x4001300C#32 1#32) 1))) = true := by decide

/-- V-FLAG-2: the read of STATUS that clears OVR still shows it. -/
theorem test_regread_status :
    got (fun t => (t.result, (t.chans[0]?).map (fun c => (c.statusWord, c.ovrArm))))
      (exec (.spiRegRead 0x40013008#32) (running (idle { chan0 with ovr := true, ovrArm := true })
        (frame (.spiRegRead 0x40013008#32) 1)))
      = some (0x00000042#32, some (0x0002#16, false)) := by decide

/-- V-FLAG-1: a read of DATA clears RXNE and arms. -/
theorem test_regread_data :
    got (fun t => (t.result, (t.chans[0]?).map (fun c => (c.statusWord, c.ovrArm))))
      (exec (.spiRegRead 0x4001300C#32) (running (idle { chan0 with rxne := true, ovr := true, rxbuf := 0x0011#16 })
        (frame (.spiRegRead 0x4001300C#32) 1)))
      = some (0x00000011#32, some (0x0042#16, true)) := by decide

/-! Accelerometer operations -/

/-- V-ACC-1: the header cell of a write to 0x2D. -/
theorem test_acc_write_header :
    got (fun t => t.hdr[0]) (exec (.accWrite 0#8 0#8 4#8 0x2D#8 8#8)
      (running (idle chan0) (frame (.accWrite 0#8 0#8 4#8 0x2D#8 8#8) 1))) = some 0x006D#16 := by decide

/-- V-HDR-7: an address above 0x3F. -/
theorem test_acc_write_address :
    isRefused .addrTooLarge (exec (.accWrite 0#8 0#8 4#8 0x40#8 8#8)
      (running (idle chan0) (frame (.accWrite 0#8 0#8 4#8 0x40#8 8#8) 1))) = true := by decide

/-- V-HDR-4: the header cell of a read at 0x32. -/
theorem test_acc_read_header :
    got (fun t => t.hdr[0]) (exec (.accRead 0#8 0#8 4#8 0x32#8 6#16 0x20000200#32)
      (running (idle chan0) (frame (.accRead 0#8 0#8 4#8 0x32#8 6#16 0x20000200#32) 1))) = some 0x00F2#16 := by decide

/-- R168 line 4: the session is marked, another is not. -/
theorem test_acc_init_mark :
    got (fun t => (t.accState ⟨0#8, 0#8, 4#8⟩, t.accState ⟨0#8, 1#8, 12#8⟩))
      (exec (.accInit 0#8 0#8 4#8) (running (idle chan0) (frame (.accInit 0#8 0#8 4#8) 4)))
      = some (.init, .uninit) := by decide

/-- R162: the example of CS_ASSERT A, 4. -/
theorem test_cs_assert :
    got (fun t => (t.trace, t.pin 0 4)) (exec (.csAssert 0#8 4#8) (running (idle chan0) (frame (.csAssert 0#8 4#8) 3)))
      = some ([.cs 0#8 4#8 false], false) := by decide

/-- V-FLT-11: a pin of 16. -/
theorem test_cs_assert_pin :
    got (fun t => (t.faultCode, t.faultInfo)) (exec (.csAssert 0#8 16#8)
      (running (idle chan0) (frame (.csAssert 0#8 16#8) 2))) = some (6#8, 16#32) := by decide

/-- R222, R40: the fault of a CS_ASSERT that ACC_WRITE called leaves the operand latches of both, on an empty stack. -/
theorem test_fault_latches :
    got (fun t => (t.pc, [t.operand .pin, t.operand .addr, t.operand .value, t.operand .buf]))
      (exec (.csAssert 0#8 16#8) { idle chan0 with
        mode := .run, pc := [frame (.csAssert 0#8 16#8) 2, frame (.accWrite 0#8 0#8 16#8 0x2D#8 8#8) 3] })
      = some ([], [some 16#32, some 0x2D#32, some 8#32, none]) := by decide

/-- R163: the pin high, and its event. -/
theorem test_cs_deassert :
    got (fun t => (t.trace, t.pin 0 4)) (exec (.csDeassert 0#8 4#8)
      (running (idle chan0) (frame (.csDeassert 0#8 4#8) 3))) = some ([.cs 0#8 4#8 true], true) := by decide

/-! The link and the slave -/

/-- V-LINK-4: LINK_START. -/
theorem test_link_start :
    got (fun t => (t.chans[0]?).map (fun c => (c.statusWord, c.shift, c.shiftActive)))
      (linkStep 0 (idle { chan0 with rxne := true, txe := false, bsy := true, txbuf := 0x00B2#16 }))
      = some (some (0x0083#16, 0x00B2#16, true)) := by decide

/-- V-LINK-5: LINK_COMPLETE with RXNE = 1 overruns and keeps RXBUF. -/
theorem test_link_overrun :
    got (fun t => (t.chans[0]?).map (fun c => (c.statusWord, c.rxbuf)))
      (linkStep 0 (idle { chan0 with
        rxne := true, bsy := true, shift := 0x00B2#16, shiftActive := true, rxbuf := 0x0011#16 }))
      = some (some (0x0043#16, 0x0011#16)) := by decide

/-- A reference slave on line (A, 4) of channel 0 in a phase. -/
def device (ph : SlavePhase) (ptr : BitVec 6) : Device :=
  ⟨0, 0#8, 4#8, ⟨(Vector.replicate 64 0#8).set 0x32 0x5A#8, ptr, ph, true⟩⟩

/-- A frame in flight on channel 0, a slave listening; `lnk` is channel 0. -/
def onWire (b : Half) (d : Device) : State :=
  { idle { chan0 with bsy := true, shift := b, shiftActive := true } with devices := [d] }

/-- R201: a read frame answers the register at the pointer, and the pointer advances. -/
theorem test_slave_read :
    got (fun t => (t.trace, t.devices.map (fun d => d.slave.ptr))) (linkStep 0 (onWire 0#16 (device .read 0x32#6)))
      = some ([.frame 0 0#16 0x005A#16], [0x33#6]) := by decide

/-- R200: a write frame stores, but not at register 0x00. -/
theorem test_slave_write :
    got (fun t => t.devices.map (fun d => d.slave.reg[0x2D])) (linkStep 0 (onWire 8#16 (device .write 0x2D#6)))
        = some [8#8]
      ∧ got (fun t => t.devices.map (fun d => d.slave.reg[0])) (linkStep 0 (onWire 8#16 (device .write 0#6)))
        = some [0#8] := by decide

/-- The pointer, flag and phase a wire header leaves. -/
def heard (i : Instr) : Option (List (BitVec 6 × Bool × SlavePhase)) :=
  got (fun t => t.devices.map (fun d => (d.slave.ptr, d.slave.mbf, d.slave.phase)))
    (exec i (onWire 0#16 (device .header 0#6)))

theorem test_wire_write_mb : heard (.wireWriteMb 0x2D#6) = some [(0x2D#6, true, .write)] := by decide
theorem test_wire_read_mb : heard (.wireReadMb 0x32#6) = some [(0x32#6, true, .read)] := by decide
theorem test_wire_write_sb : heard (.wireWriteSb 0x32#6) = some [(0x32#6, false, .write)] := by decide
theorem test_wire_read_sb : heard (.wireReadSb 0x3F#6) = some [(0x3F#6, false, .read)] := by decide

/-- 95_test_vectors.md S3 and 2.9: the scale conversion. -/
theorem test_scale :
    axisRaw 0x0000#16 0x0001#16 = 256 ∧ axisTenThousandthsG 256 = 19968
      ∧ axisRaw 0x00F0#16 0x00FF#16 = -16 ∧ axisTenThousandthsG (-32768) = -2555904 := by decide

/-! The table's words run as the first instruction after reset -/

theorem test_fetch_command :
    [(64, 0x2000000000010001), (64, 0x2000010000030002), (96, 0x0000F0004001300000000004), (32, 0x04000010),
      (96, 0x200002000006003204000012)].all
      (fun p => got (fun t => (t.mode, t.pc.length)) (step (State.reset.withFetchWord p.1 p.2))
        == some (.run, 1)) = true := by decide

theorem test_fetch_call :
    got (fun t => t.pc.map Frame.line) (step (State.reset.withFetchWord 32 0x04000013)) = some [2]
      ∧ got (fun t => t.hdr[0]) (step (State.reset.withFetchWord 64 0x0000082D04000011)) = some 0x006D#16 := by decide

theorem test_fetch_header :
    got (fun t => t.devices.map (fun d => (d.slave.ptr, d.slave.phase))) (step (State.reset.withFetchWord 8 0xF2))
      = some [(0x32#6, .read)] := by decide

/-! Witnesses: the hypotheses of each statement, met together -/

/-- The state in which operation `i` stands at line `n`, over channel 0 as given. -/
def atLine (ch : Channel) (i : Instr) (n : Nat) : State := running (idle ch) (frame i n)

/-- An operation of every kind at any of its lines: what every statement about lines assumes. -/
theorem atLine_running (ch : Channel) (i : Instr) (n : Nat) :
    (atLine ch i n).running (frame i n) [] ∧ (frame i n).atLine i n ∧ (atLine ch i n).chans[0]? = some ch :=
  ⟨⟨rfl, rfl⟩, ⟨rfl, rfl⟩, rfl⟩

theorem witness_DecodedCodeIsItsEncoding :
    ∃ d i, decode d = .ok i ∧ i.opcode.isSome = true :=
  ⟨⟨0x04000012#32, 0x00060032#32, 0x20000200#32⟩, _, test_enc_12, rfl⟩

theorem witness_DecoderTakesLengthByOpcode :
    ∃ (d e : Descriptor) (n : Nat), descriptorLength (d.word0.extractLsb' 0 8) = some n
      ∧ [d.word0, d.word1, d.word2].take n = [e.word0, e.word1, e.word2].take n ∧ d ≠ e :=
  ⟨⟨0x04000010#32, 1#32, 2#32⟩, ⟨0x04000010#32, 3#32, 4#32⟩, 1, by decide, by decide, by decide⟩

theorem witness_HeaderCarriesAddress : ∃ a : Byte, a.toNat ≤ 0x3F ∧ readHeader a = 0xFF#8 :=
  ⟨0x3F#8, by decide, by decide⟩

theorem witness_IllegalCommandRaises :
    (idle chan0).mode = .idle
      ∧ [Descriptor.mk 0x00000006#32 0#32 0#32, ⟨0x04000013#32, 0#32, 0#32⟩, ⟨0x00010101#32, 1#32, 0#32⟩,
        ⟨0x04000012#32, 0x00060132#32, 1#32⟩, ⟨0x80000005#32, 0#32, 0#32⟩].all illegalDescriptor = true := by decide

theorem witness_LegalCommandIsAccepted :
    (idle chan0).mode = .idle
      ∧ [Descriptor.mk 0x00010001#32 1#32 0#32, ⟨0x04000012#32, 0x00060032#32, 1#32⟩, ⟨0x00000005#32, 0#32, 0#32⟩].all
        (fun d => !illegalDescriptor d) = true := by decide

theorem witness_StepRunsTheInstruction_host :
    ∃ (s : State) (d : Descriptor) (rest : List HostAct) (i : Instr), s.nextTurn = some .host ∧ s.mode = .idle
      ∧ s.inbox = .command d :: rest ∧ decode d = .ok i :=
  ⟨{ idle chan0 with inbox := [.command ⟨0x04000010#32, 0#32, 0#32⟩], turns := [.host] }, ⟨0x04000010#32, 0#32, 0#32⟩, [],
    .accInit 0#8 0#8 4#8, by decide, rfl, rfl, by decide⟩

theorem witness_StepRunsTheInstruction_seq :
    ∃ (s : State) (f : Frame) (rest : List Frame), s.nextTurn = some .seq ∧ s.running f rest :=
  ⟨running (idle chan0) (frame (.spiRegRead 0x40013008#32) 1), _, [], by decide, rfl, rfl⟩

theorem witness_StepRunsTheInstruction_link :
    ∃ (s : State) (c : Nat) (ch : Channel), s.nextTurn = some (.link c) ∧ s.chans[c]? = some ch
      ∧ ch.completeEnabled = true ∧ ch.wide = false ∧ s.headerDue c = true :=
  ⟨{ onWire 0x00F2#16 (device .header 0#6) with turns := [.link 0] }, 0, { chan0 with bsy := true, shift := 0x00F2#16, shiftActive := true },
    by decide, rfl, by decide, by decide, by decide⟩

/-- Nothing is ready; SEQ and a link agent are; SEQ alone is; a link agent or HOST alone is, and may stay where it is
(R198). -/
theorem witness_ScheduleChoosesAReadyAgent :
    State.reset.turns = [] ∧ State.reset.readyTurns = [] ∧ State.reset.nextTurn = none
      ∧ (running (idle { chan0 with txe := false }) (frame (.spiRegRead 0#32) 1)).choices = [some .seq, some (.link 0)]
      ∧ (running (idle chan0) (frame (.spiRegRead 0#32) 1)).nextTurn = some .seq
      ∧ (idle { chan0 with txe := false }).choices = [none, some (.link 0)]
      ∧ { idle chan0 with inbox := [.reset] }.choices = [none, some .host] := by decide

theorem witness_CommandWaitsOutsideIdle :
    ∃ (s : State) (d : Descriptor) (rest : List HostAct), s.nextTurn = some .host ∧ s.inbox = .command d :: rest
      ∧ s.mode ≠ .idle :=
  ⟨{ running (idle chan0) (frame (.accInit 0#8 0#8 4#8) 1) with
      inbox := [.command ⟨0x04000010#32, 0#32, 0#32⟩], turns := [.host] }, _, [], by decide, rfl, by decide⟩

theorem witness_HostResetTakesOneStep :
    ∃ (s : State) (rest : List HostAct), s.nextTurn = some .host ∧ s.inbox = .reset :: rest ∧ s.mode = .fault :=
  ⟨{ idle chan0 with mode := .fault, inbox := [.reset], turns := [.host] }, [], by decide, rfl, rfl⟩

/-- The register at offset 0x0C of channel 1, the last of the map, and an address that is no register. -/
theorem witness_RegisterMapIsExact :
    Params.standard.legal = true ∧ locate Params.standard 0x4000380C#32 = some (1, .data)
      ∧ locate Params.standard 0x40003810#32 = none := by decide

/-- Line 2 of the two raw accesses returns. -/
theorem witness_RawAccess_return (a v : Word) (n : Nat) :
    (∃ s f, State.running s f [] ∧ f.op = .spiRegRead a ∧ f.line = n)
      ∧ ∃ s f, State.running s f [] ∧ f.op = .spiRegWrite a v ∧ f.line = n :=
  ⟨⟨atLine chan0 (.spiRegRead a) n, _, ⟨rfl, rfl⟩, rfl, rfl⟩, ⟨atLine chan0 (.spiRegWrite a v) n, _, ⟨rfl, rfl⟩, rfl, rfl⟩⟩

/-- For each register of channel 0 a read and a write at its address; a write of DATA with TXE = 0 among them. -/
theorem witness_RawAccessOfRegister (r : Reg) (txe : Bool) (v : Word) :
    ∃ (s : State) (f : Frame) (rest : List Frame) (a : Word) (ch : Channel) (base : Word),
      State.running s f rest ∧ (f.atLine (.spiRegRead a) 1 ∨ f.atLine (.spiRegWrite a v) 1) ∧ s.params.legal = true
        ∧ s.params.bases[0]? = some base ∧ a = base + r.offset ∧ s.chans[0]? = some ch ∧ ch.txe = txe :=
  ⟨running (idle { chan0 with txe := txe }) (frame (.spiRegWrite (0x40013000#32 + r.offset) v) 1), _, [],
    0x40013000#32 + r.offset, _, 0x40013000#32, ⟨rfl, rfl⟩, .inr ⟨rfl, rfl⟩, standard_legal, rfl, rfl, rfl, rfl⟩

theorem witness_RawReadOfRegister (r : Reg) :
    ∃ (s : State) (f : Frame) (rest : List Frame) (a : Word) (ch : Channel) (base : Word),
      State.running s f rest ∧ f.atLine (.spiRegRead a) 1 ∧ s.params.legal = true
        ∧ s.params.bases[0]? = some base ∧ a = base + r.offset ∧ s.chans[0]? = some ch ∧ ch.ovrArm = true :=
  ⟨running (idle { chan0 with ovr := true, ovrArm := true }) (frame (.spiRegRead (0x40013000#32 + r.offset)) 1), _, [],
    0x40013000#32 + r.offset, _, 0x40013000#32, ⟨rfl, rfl⟩, ⟨rfl, rfl⟩, standard_legal, rfl, rfl, rfl, rfl⟩

/-- The last word of the address space, with a platform memory. -/
theorem witness_RawAccessToPlatformMemory (i : Instr) :
    ∃ (s : State) (f : Frame) (rest : List Frame), s.params.platform = true ∧ (0xFFFFFFFC#32 : Word).toNat % 4 = 0
      ∧ locate s.params 0xFFFFFFFC#32 = none ∧ s.mem.wf = true ∧ s.running f rest ∧ f.atLine i 1 :=
  ⟨{ running (idle chan0) (frame i 1) with params := { Params.standard with platform := true } }, _, [], rfl, by decide,
    (by decide : locate { Params.standard with platform := true } 0xFFFFFFFC#32 = none), hostMem_wf, ⟨rfl, rfl⟩, rfl,
    rfl⟩

theorem witness_ControlRegisterRoundTrip :
    ∃ (s t u : State) (f g : Frame), s.running f [] ∧ f.atLine (.spiRegWrite 0x40013004#32 0xFFFF#32) 1
      ∧ s.params.legal = true ∧ s.params.bases[0]? = some 0x40013000#32
      ∧ (0x40013004#32 : Word) = 0x40013000#32 + Reg.ctrl2.offset
      ∧ exec (.spiRegWrite 0x40013004#32 0xFFFF#32) s = .next t ∧ u.running g [] ∧ g.atLine (.spiRegRead 0x40013004#32) 1
      ∧ u.params = t.params ∧ u.chans = t.chans := by
  obtain ⟨t, ht⟩ := exists_next (r := exec (.spiRegWrite 0x40013004#32 0xFFFF#32)
    (running (idle chan0) (frame (.spiRegWrite 0x40013004#32 0xFFFF#32) 1))) (by decide)
  exact ⟨_, t, running t (frame (.spiRegRead 0x40013004#32) 1), _, _, ⟨rfl, rfl⟩, ⟨rfl, rfl⟩, by decide, rfl, by decide,
    ht, ⟨rfl, rfl⟩, ⟨rfl, rfl⟩, rfl, rfl⟩

theorem witness_RawAccessFrame :
    (∃ s t, exec (.spiRegRead 0x40013008#32) s = .next t) ∧ ∃ s t, exec (.spiRegWrite 0x40013000#32 0#32) s = .next t :=
  ⟨⟨running (idle chan0) (frame (.spiRegRead 0x40013008#32) 1), exists_next (by decide)⟩,
    ⟨running (idle chan0) (frame (.spiRegWrite 0x40013000#32 0#32) 1), exists_next (by decide)⟩⟩

theorem witness_HostGivesBuffersAndTables (a : HostAct) :
    ∃ s : State, s.mode ≠ .run ∧ s.mem.wf = true ∧ s.nextTurn = some .host ∧ s.inbox = [a] :=
  ⟨{ idle chan0 with inbox := [a], turns := [.host] }, SeqMode.noConfusion, hostMem_wf, rfl, rfl⟩

theorem witness_InitTakesEachRecord (n : Nat) :
    ∃ s f cfg, State.running s f [] ∧ f.op = .spiInit 1#16 0x20000000#32 ∧ f.line = n ∧ (0x20000000#32 : Word) ≠ 0#32
      ∧ s.cfgRead 0x20000000#32 f.idx.toNat = some cfg :=
  ⟨atLine chan0 (.spiInit 1#16 0x20000000#32) n, _, record0, ⟨rfl, rfl⟩, rfl, rfl, by decide, rfl⟩

/-- The two RegFields of line 5, at each of their steps; the last RegField, of line 12; the one in CTRL2. -/
theorem witness_InitProgramsEachField (sub : Nat) :
    ∃ s f ch, State.running s f [] ∧ f.op = .spiInit 1#16 0x20000000#32 ∧ f.line = 5 ∧ f.sub = sub
      ∧ s.chans[f.cfg.channel.toNat]? = some ch
      ∧ initFields f.line f.cfg = some [(.polarity, 1#16), (.phase, 1#16)] :=
  ⟨running (idle chan0) { frame (.spiInit 1#16 0x20000000#32) 5 with cfg := record0, sub := sub }, _, _, ⟨rfl, rfl⟩, rfl,
    rfl, rfl, rfl, (by decide : initFields 5 record0 = some [(.polarity, 1#16), (.phase, 1#16)])⟩

theorem witness_InitProgramsEachField_last :
    initFields 12 record0 = some [(.enable, 1#16)] ∧ initFields 8 { record0 with ss := 2#8 } = some [(.ssoe, 0#16)] := by
  decide

/-- The largest legal code and the smallest illegal one of the slave-select line. -/
theorem witness_InitRejectsEnumOutOfRange (code : Byte) :
    ∃ s f, State.running s f [] ∧ f.op = .spiInit 1#16 0x20000000#32 ∧ enumerant f.line f.cfg = some (code, 3) :=
  ⟨running (idle chan0) { frame (.spiInit 1#16 0x20000000#32) 8 with cfg := { record0 with ss := code } }, _, ⟨rfl, rfl⟩,
    rfl, rfl⟩

theorem witness_InitRejectsEnumOutOfRange_fault :
    (2#8 : Byte).toNat < 3 ∧ 3 ≤ (3#8 : Byte).toNat
      ∧ got (fun t => (t.mode, t.faultCode)) (step (running (idle chan0)
        { frame (.spiInit 1#16 0x20000000#32) 8 with cfg := { record0 with ss := 3#8 } })) = some (.fault, 2#8) := by
  decide

theorem witness_InitRecordClosedForm :
    ∃ (s : State) (f : Frame) (ts : List Turn), s.running f [] ∧ f.op = .spiInit 1#16 0x20000000#32 ∧ f.line = 5
      ∧ f.sub = 0 ∧ recordLegal f.cfg = true ∧ (s.chans[f.cfg.channel.toNat]?).isSome ∧ s.turns = ts ++ []
      ∧ .host ∉ ts ∧ ts.count .seq = initSteps f.cfg :=
  ⟨{ running (idle chan0) { frame (.spiInit 1#16 0x20000000#32) 5 with cfg := record0 } with
      turns := .link 0 :: List.replicate 20 .seq }, { frame (.spiInit 1#16 0x20000000#32) 5 with cfg := record0 },
    .link 0 :: List.replicate 20 .seq, ⟨rfl, rfl⟩, rfl, rfl, rfl, by decide, by decide, rfl, by decide, by decide⟩

/-- A table of two records of channel 0 that differ in the slave-select line, with a link step between SEQ's; run again
with another schedule on the control registers that the first run leaves. -/
def init2 (ch : Channel) (turns : List Turn) : State :=
  { running (idle ch) (frame (.spiInit 2#16 0x20000040#32) 1) with
    mem := ⟨[], [(0x20000040, [record0, { record0 with ss := 2#8 }])], []⟩
    turns := turns }

theorem init2_meets (ch : Channel) (ts : List Turn) (h : .host ∉ ts) (hs : ts.count .seq = 46) :
    (init2 ch ts).initRun (frame (.spiInit 2#16 0x20000040#32) 1) [] 2#16 0x20000040#32
      [record0, { record0 with ss := 2#8 }] ts [] where
  running := ⟨rfl, rfl⟩
  entry := ⟨rfl, rfl⟩
  counted := by decide
  given := fun i hi => match i, hi with | 0, _ => rfl | 1, _ => rfl
  notNull := .inl (by decide)
  legal := by decide
  channels := by simp [init2, running, idle, record0, State.reset, State.resetWith, Params.standard, Params.nCh]
  schedule := (List.append_nil _).symm
  noHost := h
  steps := by rw [hs]; decide

theorem witness_InitTableIdempotent :
    ∃ (s u : State) (f : Frame) (ts us : List Turn),
      s.initRun f [] 2#16 0x20000040#32 [record0, { record0 with ss := 2#8 }] ts []
        ∧ u.initRun f [] 2#16 0x20000040#32 [record0, { record0 with ss := 2#8 }] us []
        ∧ u.controls = [record0, { record0 with ss := 2#8 }].foldl programRecord s.controls :=
  ⟨_, _, _, _, _, init2_meets { chan0 with ctrl1 := 0xF000#16, ctrl2 := 0xFFFF#16 } (.link 0 :: List.replicate 46 .seq)
      (by decide) (by decide),
    init2_meets { chan0 with ctrl1 := 0xF35F#16, ctrl2 := 0xFFFB#16 } (List.replicate 46 .seq) (by decide) (by decide),
    by decide⟩

/-- A step of SPI_INIT from a state in which the position is one the operations make. -/
theorem witness_UncoveredBitsChangeOnlyByRawWriteOrReset :
    ∃ s t : State, s.positionOk = true ∧ step s = .next t ∧ s.nextTurn = some .seq := by
  obtain ⟨t, ht⟩ := exists_next (r := step (running (idle chan0)
    { frame (.spiInit 1#16 0x20000000#32) 5 with cfg := record0 })) (by decide)
  exact ⟨_, t, by decide, ht, by decide⟩

theorem witness_InitFrame : ∃ s t, exec (.spiInit 1#16 0x20000000#32) s = .next t :=
  ⟨running (idle chan0) { frame (.spiInit 1#16 0x20000000#32) 5 with cfg := record0 }, exists_next (by decide)⟩

/-- Each assertion, met at the last legal value and failed at the first illegal one. -/
theorem witness_AssertionsOfThePseudocode :
    contract (idle chan0) (.spiInit 1#16 1#32) 3 { record0 with channel := 2#8 } = some (false, 1#8, 2#32)
      ∧ contract (idle chan0) (.spiTransfer 1#8 1#16 1#32) 1 record0 = some (true, 1#8, 1#32)
      ∧ contract (idle chan0) (.spiTransfer 2#8 1#16 1#32) 1 record0 = some (false, 1#8, 2#32)
      ∧ contract (idle chan0) (.spiReceive 0#8 0#16 1#32) 2 record0 = some (false, 3#8, 0#32)
      ∧ contract (idle chan0) (.spiReceive 0#8 1#16 0#32) 3 record0 = some (false, 4#8, 0#32)
      ∧ contract (idle chan0) (.csAssert 4#8 4#8) 1 record0 = some (true, 5#8, 4#32)
      ∧ contract (idle chan0) (.csAssert 5#8 4#8) 1 record0 = some (false, 5#8, 5#32)
      ∧ contract (idle chan0) (.csDeassert 0#8 15#8) 2 record0 = some (true, 6#8, 15#32)
      ∧ contract (idle chan0) (.csDeassert 0#8 16#8) 2 record0 = some (false, 6#8, 16#32) :=
  ⟨rfl, rfl, rfl, rfl, rfl, rfl, rfl, rfl, rfl⟩

/-- A wait whose flag has the value, and one whose flag has not, under each kind of bound. -/
theorem witness_PollsOfThePseudocode (bound : Option Nat) (txe : Bool) (polls : Nat) :
    ∃ s f ch, State.running s f [] ∧ waits f.op f.line = some (0#8, .txe, true)
      ∧ s.chans[(0#8 : Byte).toNat]? = some ch ∧ ch.flag .txe = txe ∧ s.params.waitBound = bound ∧ s.polls = polls :=
  ⟨{ atLine { chan0 with txe := txe } (.spiTransfer 0#8 1#16 0x20000100#32) 5 with
      params := { Params.standard with waitBound := bound }, polls := polls }, _, _, ⟨rfl, rfl⟩, rfl, rfl, rfl, rfl, rfl⟩

/-- The other three waits. -/
theorem witness_PollsOfThePseudocode_others :
    waits (.spiTransfer 0#8 1#16 1#32) 8 = some (0#8, .txe, true)
      ∧ waits (.spiTransfer 0#8 1#16 1#32) 9 = some (0#8, .bsy, false)
      ∧ waits (.spiReceive 0#8 1#16 1#32) 6 = some (0#8, .rxne, true) := by decide

/-- V-RX-5: SPI_RECEIVE's wait on a channel that was never enabled. -/
theorem witness_DisabledChannelHangs :
    ∃ (s : State) (f : Frame) (ch : Channel), s.running f [] ∧ waits f.op f.line = some (0#8, .rxne, true)
      ∧ s.chans[(0#8 : Byte).toNat]? = some ch ∧ ch.enable = false ∧ ch.flag .rxne ≠ true
      ∧ s.params.waitBound = none ∧ .reset ∉ s.inbox :=
  ⟨running (idle { chan0 with ctrl1 := 0#16, txe := false }) (frame (.spiReceive 0#8 1#16 0x20000200#32) 6), _, _,
    ⟨rfl, rfl⟩, rfl, rfl, by decide, by decide, rfl, by decide⟩

/-- What each line asks: a link that is not open, a cell within the capacity, TXE = 1. -/
theorem witness_TransferLines (n : Nat) :
    ∃ s f c, State.running s f [] ∧ f.op = .spiTransfer 0#8 3#16 0x20000100#32 ∧ f.line = n
      ∧ s.chans[(0#8 : Byte).toNat]? = some c ∧ c.linkOpen = false ∧ c.txe = true
      ∧ s.bufRead 0x20000100#32 f.idx.toNat = some 0x00A1#16 :=
  ⟨atLine chan0 (.spiTransfer 0#8 3#16 0x20000100#32) n, _, chan0, ⟨rfl, rfl⟩, rfl, rfl, rfl, by decide, rfl, rfl⟩

/-- A receive-only link with a supplied step relation, at the loop head of either operation. -/
theorem witness_openLoopHead (i : Instr) :
    ∃ s f c, State.running s f [] ∧ f.atLine i 4 ∧ s.chans[(0#8 : Byte).toNat]? = some c ∧ c.linkOpen = true
      ∧ s.params.linkOther = .supplied :=
  ⟨{ atLine { chan0 with ctrl1 := 0x075F#16 } i 4 with params := { Params.standard with linkOther := .supplied } }, _, _,
    ⟨rfl, rfl⟩, ⟨rfl, rfl⟩, rfl, by decide, rfl⟩

/-- The same, and the last cell of the buffer and of HDR. -/
theorem witness_ReceiveLines (n : Nat) :
    ∃ s f c, State.running s f [] ∧ f.op = .spiReceive 0#8 6#16 0x20000200#32 ∧ f.line = n
      ∧ s.chans[(0#8 : Byte).toNat]? = some c ∧ c.linkOpen = false ∧ c.txe = true
      ∧ (s.bufRead 0x20000200#32 f.idx.toNat).isSome :=
  ⟨atLine chan0 (.spiReceive 0#8 6#16 0x20000200#32) n, _, chan0, ⟨rfl, rfl⟩, rfl, rfl, rfl, by decide, rfl, rfl⟩

theorem witness_lastCells :
    (idle chan0).bufRead 0x20000100#32 2 = some 0x00C3#16 ∧ ((idle chan0).bufRead 0x20000200#32 5).isSome = true
      ∧ ((idle chan0).bufRead State.reset.params.hdrRef 1).isSome = true := by decide

/-- Each of the cases without a meaning, refused by its name. -/
theorem witness_CasesWithoutMeaningAreRefused :
    isRefused .misaligned (exec (.spiRegRead 0x40013002#32) (atLine chan0 (.spiRegRead 0x40013002#32) 1)) = true
      ∧ isRefused .outsideMap (exec (.spiRegWrite 0x40013010#32 0#32)
        (atLine chan0 (.spiRegWrite 0x40013010#32 0#32) 1)) = true
      ∧ isRefused .addrTooLarge (exec (.accRead 0#8 0#8 4#8 0x40#8 1#16 1#32)
        (atLine chan0 (.accRead 0#8 0#8 4#8 0x40#8 1#16 1#32) 1)) = true
      ∧ isRefused .beyondCapacity (exec (.spiTransfer 0#8 4#16 0x20000300#32)
        (atLine chan0 (.spiTransfer 0#8 4#16 0x20000300#32) 6)) = true
      ∧ isRefused .beyondCapacity (exec (.spiReceive 0#8 4#16 0x20000300#32)
        (atLine chan0 (.spiReceive 0#8 4#16 0x20000300#32) 8)) = true
      ∧ isRefused .dataWriteFull (exec (.spiReceive 0#8 1#16 0x20000200#32)
        (atLine { chan0 with txe := false } (.spiReceive 0#8 1#16 0x20000200#32) 5)) = true := by decide

/-- V-LINK-10, and the tables SPI_INIT does not read. -/
theorem witness_CasesWithoutMeaningAreRefused_more :
    isRefused .linkOther (exec (.spiTransfer 0#8 1#16 0x20000100#32)
        (atLine { chan0 with ctrl1 := 0x075F#16 } (.spiTransfer 0#8 1#16 0x20000100#32) 4)) = true
      ∧ isRefused .linkOther (exec (.spiReceive 0#8 1#16 0x20000200#32)
        (atLine { chan0 with ctrl1 := 0x035B#16 } (.spiReceive 0#8 1#16 0x20000200#32) 4)) = true
      ∧ isRefused .nullTable (exec (.spiInit 1#16 0#32) (atLine chan0 (.spiInit 1#16 0#32) 2)) = true
      ∧ isRefused .beyondTable (exec (.spiInit 1#16 0x20000004#32)
        (atLine chan0 (.spiInit 1#16 0x20000004#32) 2)) = true := by decide

theorem witness_TransferReceiveFrame :
    (∃ s t, exec (.spiTransfer 0#8 1#16 0x20000100#32) s = .next t)
      ∧ ∃ s t, exec (.spiReceive 0#8 1#16 0x20000200#32) s = .next t :=
  ⟨⟨running (idle chan0) (frame (.spiTransfer 0#8 1#16 0x20000100#32) 10), exists_next (by decide)⟩,
    ⟨running (idle chan0) (frame (.spiReceive 0#8 1#16 0x20000200#32) 8), exists_next (by decide)⟩⟩

/-- SPI_TRANSFER of program P3, with the eager schedule. -/
def p3 : State :=
  { running (idle chan0) (frame (.spiTransfer 0#8 3#16 0x20000100#32) 1) with turns := transferTurns 0 3 }

theorem p3_cells : p3.firstCells 0x20000100#32 3 [0x00A1#16, 0x00B2#16, 0x00C3#16] := by
  refine ⟨rfl, fun i hi => ?_⟩
  match i, hi with
  | 0, _ => rfl
  | 1, _ => rfl
  | 2, _ => rfl

theorem witness_TransferRunsToReturn :
    ∃ (f : Frame) (more : List Turn), p3.running f [] ∧ f.atLine (.spiTransfer 0#8 3#16 0x20000100#32) 1
      ∧ (0#8 : Byte).toNat < p3.params.nCh ∧ (3#16 : Half) ≠ 0#16 ∧ (0x20000100#32 : Word) ≠ 0#32
      ∧ p3.chans[(0#8 : Byte).toNat]? = some chan0 ∧ chan0.ready = true
      ∧ p3.firstCells 0x20000100#32 (3#16 : Half).toNat [0x00A1#16, 0x00B2#16, 0x00C3#16]
      ∧ p3.turns = transferTurns (0#8 : Byte).toNat (3#16 : Half).toNat ++ more :=
  ⟨_, [], ⟨rfl, rfl⟩, ⟨rfl, rfl⟩, by decide, by decide, by decide, rfl, by decide, p3_cells, rfl⟩

/-- SPI_RECEIVE of two words, with the eager schedule. -/
def rx1 : State :=
  { running (idle chan0) (frame (.spiReceive 0#8 2#16 0x20000200#32) 1) with turns := receiveTurns 0 2 }

theorem rx1_cells : rx1.hasCells 0x20000200#32 2 := by
  intro i hi
  match i, hi with
  | 0, _ => rfl
  | 1, _ => rfl

theorem witness_ReceiveRunsToReturn :
    ∃ (f : Frame) (more : List Turn), rx1.running f [] ∧ f.atLine (.spiReceive 0#8 2#16 0x20000200#32) 1
      ∧ (0#8 : Byte).toNat < rx1.params.nCh ∧ (2#16 : Half) ≠ 0#16 ∧ (0x20000200#32 : Word) ≠ 0#32
      ∧ rx1.chans[(0#8 : Byte).toNat]? = some chan0 ∧ chan0.ready = true ∧ chan0.rxne = false ∧ chan0.ovr = false
      ∧ rx1.hasCells 0x20000200#32 (2#16 : Half).toNat
      ∧ rx1.turns = receiveTurns (0#8 : Byte).toNat (2#16 : Half).toNat ++ more :=
  ⟨_, [], ⟨rfl, rfl⟩, ⟨rfl, rfl⟩, by decide, by decide, by decide, rfl, by decide, rfl, rfl, rx1_cells, rfl⟩

/-- A transfer of one word that returns after fourteen steps. -/
def tx1 : State :=
  { running (idle chan0) (frame (.spiTransfer 0#8 1#16 0x20000100#32) 1) with turns := transferTurns 0 1 }

theorem witness_TransferInEveryInterleaving :
    ∃ (t : State) (n : Nat) (f : Frame), tx1.running f [] ∧ f.atLine (.spiTransfer 0#8 1#16 0x20000100#32) 1
      ∧ tx1.chans[(0#8 : Byte).toNat]? = some chan0 ∧ chan0.ready = true
      ∧ tx1.firstCells 0x20000100#32 (1#16 : Half).toNat [0x00A1#16] ∧ .reset ∉ tx1.inbox
      ∧ firstReturn tx1 t n 0 ∧ t.safe :=
  ⟨ended 14 tx1, 14, _, ⟨rfl, rfl⟩, ⟨rfl, rfl⟩, rfl, by decide,
    ⟨rfl, fun i hi => match i, hi with | 0, _ => rfl⟩, by decide,
    firstReturn_ended (by decide +kernel) (by decide +kernel) (by decide +kernel),
    by unfold State.safe; decide +kernel⟩

/-- A receive of one word that returns after eleven steps. -/
def rx0 : State :=
  { running (idle chan0) (frame (.spiReceive 0#8 1#16 0x20000200#32) 1) with turns := receiveTurns 0 1 }

theorem witness_ReceiveInEveryInterleaving :
    ∃ (t : State) (n : Nat) (f : Frame), rx0.running f [] ∧ f.atLine (.spiReceive 0#8 1#16 0x20000200#32) 1
      ∧ rx0.chans[(0#8 : Byte).toNat]? = some chan0 ∧ chan0.ready = true ∧ chan0.rxne = false ∧ chan0.ovr = false
      ∧ .reset ∉ rx0.inbox ∧ firstReturn rx0 t n 0 ∧ t.safe :=
  ⟨ended 11 rx0, 11, _, ⟨rfl, rfl⟩, ⟨rfl, rfl⟩, rfl, by decide, rfl, rfl, by decide,
    firstReturn_ended (by decide +kernel) (by decide +kernel) (by decide +kernel),
    by unfold State.safe; decide +kernel⟩

/-- CS_ASSERT and CS_DEASSERT at any line, with a pin that exists and one that does not. -/
theorem witness_ChipSelectDrivesPin (level : Bool) (n : Nat) :
    ∃ (s : State) (f : Frame), s.running f [] ∧ f.op = (if level then .csDeassert 4#8 15#8 else .csAssert 4#8 15#8)
      ∧ f.line = n ∧ (4#8 : Byte).toNat < 5 ∧ (15#8 : Byte).toNat < s.params.pinMaxOf (4#8 : Byte).toNat
      ∧ (0, 0) ≠ ((4#8 : Byte).toNat, (15#8 : Byte).toNat) :=
  ⟨running (idle chan0) (frame (if level then .csDeassert 4#8 15#8 else .csAssert 4#8 15#8) n), _, ⟨rfl, rfl⟩, rfl, rfl,
    by decide, (by decide : (15#8 : Byte).toNat < Params.standard.pinMaxOf (4#8 : Byte).toNat), by decide⟩

theorem witness_AccWriteLines (n : Nat) :
    ∃ s f, State.running s f [] ∧ f.op = .accWrite 0#8 0#8 4#8 0x3F#8 8#8 ∧ f.line = n ∧ (0x3F#8 : Byte).toNat ≤ 0x3F :=
  ⟨atLine chan0 (.accWrite 0#8 0#8 4#8 0x3F#8 8#8) n, _, ⟨rfl, rfl⟩, rfl, rfl, by decide⟩

theorem witness_AccInitLines (n : Nat) :
    ∃ s f, State.running s f [] ∧ f.op = .accInit 0#8 0#8 4#8 ∧ f.line = n :=
  ⟨atLine chan0 (.accInit 0#8 0#8 4#8) n, _, ⟨rfl, rfl⟩, rfl, rfl⟩

theorem witness_AccReadLines (n : Nat) :
    ∃ s f, State.running s f [] ∧ f.op = .accRead 0#8 0#8 4#8 0x3F#8 6#16 0x20000200#32 ∧ f.line = n
      ∧ (0x3F#8 : Byte).toNat ≤ 0x3F :=
  ⟨atLine chan0 (.accRead 0#8 0#8 4#8 0x3F#8 6#16 0x20000200#32) n, _, ⟨rfl, rfl⟩, rfl, rfl, by decide⟩

theorem witness_AccAndChipSelectFrame :
    [Instr.csAssert 0#8 4#8, .csDeassert 0#8 4#8, .accInit 0#8 0#8 4#8, .accWrite 0#8 0#8 4#8 0x2D#8 8#8,
      .accRead 0#8 0#8 4#8 0x32#8 6#16 0x20000200#32].all
      (fun i => isNext (exec i (running (idle chan0) (frame i 3)))) = true := by decide

/-- An accelerometer operation on the idle channel 0, its session (A, 4), a reference slave on its line: what the
statements about whole accelerometer operations assume. -/
def accAt (i : Instr) (turns : List Turn) : State :=
  { running (idle chan0) (frame i 1) with turns := turns, devices := [device .header 0#6] }

theorem accAt_meets (i : Instr) (turns : List Turn) :
    ∃ (f : Frame) (d : Device), (accAt i turns).running f [] ∧ f.atLine i 1 ∧ (accAt i turns).params.legal = true
      ∧ (0#8 : Byte).toNat < (accAt i turns).params.nCh ∧ (0#8 : Byte).toNat < 5
      ∧ (4#8 : Byte).toNat < (accAt i turns).params.pinMaxOf (0#8 : Byte).toNat
      ∧ (accAt i turns).chans[(0#8 : Byte).toNat]? = some chan0 ∧ chan0.ready = true ∧ chan0.wide = false
      ∧ (accAt i turns).hasCells 0x20000200#32 1 ∧ (accAt i turns).devices = [d] ∧ d.chan = (0#8 : Byte).toNat
      ∧ d.port = 0#8 ∧ d.pin = 4#8 ∧ (accAt i turns).turns = turns ++ [] :=
  ⟨_, _, ⟨rfl, rfl⟩, ⟨rfl, rfl⟩, standard_legal, (by decide : (0#8 : Byte).toNat < Params.standard.nCh), by decide,
    (by decide : (4#8 : Byte).toNat < Params.standard.pinMaxOf (0#8 : Byte).toNat), rfl, by decide, by decide,
    fun i hi => match i, hi with | 0, _ => rfl, rfl, rfl, rfl, rfl, (List.append_nil _).symm⟩

/-- ACC_WRITE of 0x08 to the largest address. -/
theorem witness_AccWriteEmitsOneTransaction :
    (0x3F#8 : Byte).toNat ≤ 0x3F
      ∧ ∃ f d, (accAt (.accWrite 0#8 0#8 4#8 0x3F#8 8#8) (accWriteTurns 0)).running f []
        ∧ f.atLine (.accWrite 0#8 0#8 4#8 0x3F#8 8#8) 1
        ∧ (accAt (.accWrite 0#8 0#8 4#8 0x3F#8 8#8) (accWriteTurns 0)).devices = [d] :=
  ⟨by decide, _, _, ⟨rfl, rfl⟩, ⟨rfl, rfl⟩, rfl⟩

theorem witness_AccInitEmitsThreeTransactions :
    ∃ f, (accAt (.accInit 0#8 0#8 4#8) (accInitTurns 0)).running f [] ∧ f.atLine (.accInit 0#8 0#8 4#8) 1 :=
  ⟨_, ⟨rfl, rfl⟩, ⟨rfl, rfl⟩⟩

/-- ACC_READ of one register at the largest address. -/
theorem witness_AccReadEmitsOneTransaction :
    (0x3F#8 : Byte).toNat ≤ 0x3F ∧ (1#16 : Half) ≠ 0#16 ∧ (0x20000200#32 : Word) ≠ 0#32
      ∧ ∃ f, (accAt (.accRead 0#8 0#8 4#8 0x3F#8 1#16 0x20000200#32) (accReadTurns 0 1)).running f []
        ∧ f.atLine (.accRead 0#8 0#8 4#8 0x3F#8 1#16 0x20000200#32) 1 :=
  ⟨by decide, by decide, by decide, _, ⟨rfl, rfl⟩, ⟨rfl, rfl⟩⟩

/-- A channel with LINK_START enabled, one that is disabled, one in slave role and one receive-only under `refuse`, and an
idle one. -/
theorem witness_LinkStartStep (ch : Channel) : (idle ch).chans[0]? = some ch ∧ (idle ch).params.linkOther = .refuse :=
  ⟨rfl, rfl⟩

theorem witness_LinkStartStep_channels :
    { chan0 with txe := false }.startEnabled = true ∧ { chan0 with ctrl1 := 0#16 }.enable = false
      ∧ { chan0 with ctrl1 := 0x035B#16 }.role = false ∧ { chan0 with ctrl1 := 0x075F#16 }.rxonly = true
      ∧ chan0.txe = true ∧ chan0.shiftActive = false ∧ chan0.role = true ∧ chan0.rxonly = false := by decide

theorem witness_LinkCompleteStep :
    ∃ ch, (onWire 0x00F2#16 (device .header 0#6)).chans[0]? = some ch ∧ ch.enable = true ∧ ch.role = true
      ∧ ch.rxonly = false ∧ ch.shiftActive = true := ⟨_, rfl, by decide, by decide, by decide, rfl⟩

theorem witness_FramesCarryTheWordsWritten :
    (∃ t, linkStep 0 (onWire 0x00F2#16 (device .header 0#6)) = .next t)
      ∧ (∃ t, exec (.spiTransfer 0#8 1#16 0x20000100#32)
        (running (idle chan0) (frame (.spiTransfer 0#8 1#16 0x20000100#32) 7)) = .next t)
      ∧ ∃ t, exec (.spiReceive 0#8 1#16 0x20000200#32)
        (running (idle chan0) (frame (.spiReceive 0#8 1#16 0x20000200#32) 5)) = .next t :=
  ⟨exists_next (by decide), exists_next (by decide), exists_next (by decide)⟩

/-- A frame in flight on the 8-bit channel 0 with a selected device, and the two ways in which there is none. -/
theorem witness_WireHeaderSetsTheDevice :
    ∃ ch d, (onWire 0#16 (device .header 0#6)).chans[(onWire 0#16 (device .header 0#6)).lnk]? = some ch
      ∧ ch.completeEnabled = true ∧ ch.wide = false ∧ (onWire 0#16 (device .header 0#6)).devices[0]? = some d
      ∧ (onWire 0#16 (device .header 0#6)).selected 0 d = true ∧ d.slave.phase = .header
      ∧ chan0.completeEnabled = false ∧ { chan0 with ctrl1 := 0x0B5F#16, shiftActive := true }.wide = true :=
  ⟨_, _, rfl, by decide, by decide, rfl, by decide, rfl, by decide, by decide⟩

/-- An SPI_REGWRITE of DATA at the last address of the map, and its two channels. -/
theorem witness_FramesCarryTheWordsWritten_raw :
    ∃ s t f c, State.running s f [] ∧ f.atLine (.spiRegWrite 0x4000380C#32 0x000000A5#32) 1 ∧ s.params.legal = true
      ∧ s.params.bases[1]? = some 0x40003800#32 ∧ (0x4000380C#32 : Word) = 0x40003800#32 + Reg.data.offset
      ∧ s.chans[1]? = some c ∧ exec f.op s = .next t := by
  obtain ⟨t, ht⟩ := exists_next (r := exec (.spiRegWrite 0x4000380C#32 0x000000A5#32)
    (running (idle chan0) (frame (.spiRegWrite 0x4000380C#32 0x000000A5#32) 1))) (by decide)
  exact ⟨_, t, frame (.spiRegWrite 0x4000380C#32 0x000000A5#32) 1, chan0, ⟨rfl, rfl⟩, ⟨rfl, rfl⟩, standard_legal, rfl,
    by decide, rfl, ht⟩

theorem witness_WireHeaderFrame (a : BitVec 6) :
    ∃ t, exec (.wireReadMb a) (idle chan0) = .next t := ⟨_, rfl⟩

theorem witness_ReferenceSlaveData (ph : SlavePhase) (h : ph ≠ .header) :
    ∃ (s : State) (ch : Channel) (d : Device), s.chans[0]? = some ch ∧ ch.completeEnabled = true ∧ ch.wide = false
      ∧ s.devices[0]? = some d ∧ s.selected 0 d = true ∧ d.slave.phase ≠ .header ∧ d.slave.phase = ph
      ∧ s.listeners 0 = [d] := by
  cases ph with
  | header => exact absurd rfl h
  | write => exact ⟨onWire 8#16 (device .write 0x2D#6), _, _, rfl, by decide, by decide, rfl, by decide, by decide, rfl,
      by decide⟩
  | read => exact ⟨onWire 0#16 (device .read 0x3F#6), _, _, rfl, by decide, by decide, rfl, by decide, by decide, rfl,
      by decide⟩

theorem witness_FaultEntryChangesNothingElse :
    ∃ s t : State, step s = .next t ∧ s.mode ≠ .fault ∧ t.mode = .fault := by
  exact ⟨running (idle chan0) (frame (.spiTransfer 2#8 1#16 1#32) 1), _, rfl, by decide, rfl⟩

theorem witness_FaultIsLeftByResetOnly :
    ∃ s t : State, s.mode = .fault ∧ step s = .next t ∧ ¬ s.hostActs .reset
      ∧ s.inbox.head? = some (.command ⟨0x04000010#32, 0#32, 0#32⟩) := by
  refine ⟨{ idle chan0 with
    mode := .fault, faultCode := 1#8, inbox := [.command ⟨0x04000010#32, 0#32, 0#32⟩], turns := [.host] }, _, rfl, rfl,
    ?_, rfl⟩
  rintro ⟨_, h, _⟩
  simp at h

/-- ACC_WRITE inside its window: its SPI_TRANSFER running, its chip-select line low, its flags settled. -/
def inWindow : State :=
  { idle chan0 with
    mode := .run
    pc := [frame (.spiTransfer 0#8 2#16 State.reset.params.hdrRef) 5, frame (.accWrite 0#8 0#8 4#8 0x2D#8 8#8) 4] }

theorem witness_Invariants :
    ∃ t, inWindow.positionOk = true ∧ inWindow.listsOk = true ∧ inWindow.params.linkOther = .refuse
      ∧ inWindow.flagsOk = true ∧ inWindow.selectOk = true ∧ inWindow.csPhase = .header
      ∧ inWindow.faultRegsOk = true ∧ step inWindow = .next t := by
  obtain ⟨t, ht⟩ := exists_next (r := step inWindow) (by decide)
  exact ⟨t, by decide, by decide, rfl, by decide, by decide, by decide, by decide, ht⟩

/-- ACC_INIT at the bottom, its ACC_WRITE called. -/
theorem witness_InternalOperationsOnlyCalled :
    ∃ s t : State, s.entryOk = true ∧ step s = .next t := by
  obtain ⟨t, ht⟩ := exists_next (r := step (running (idle chan0) (frame (.accInit 0#8 0#8 4#8) 1))) (by decide)
  exact ⟨_, t, by decide, ht⟩

/-- A step that drives a pin, and HOST's reset. -/
theorem witness_WhatChangesByWhichStep :
    ∃ s t : State, step s = .next t ∧ ¬ s.hostActs .reset ∧ s.seqOn (frame (.csDeassert 0#8 4#8) 3) := by
  obtain ⟨t, ht⟩ := exists_next (r := step (running (idle chan0) (frame (.csDeassert 0#8 4#8) 3))) (by decide)
  refine ⟨_, t, ht, ?_, by decide, rfl, rfl⟩
  rintro ⟨h, _, _⟩
  exact absurd h (by decide)

/-- A step that completes a frame, with its position one the operations make. -/
theorem witness_WhatChangesByWhichStep_frame :
    ∃ s t : State, step s = .next t ∧ s.positionOk = true ∧ s.nextTurn = some (.link 0) ∧ t.trace ≠ s.trace := by
  have hl : got (fun t => t.trace.length)
      (step { onWire 0x00F2#16 (device .header 0#6) with turns := [.link 0] }) = some 1 := by decide
  obtain ⟨t, ht⟩ := exists_next (r := step { onWire 0x00F2#16 (device .header 0#6) with turns := [.link 0] }) (by decide)
  rw [ht] at hl
  refine ⟨_, t, ht, by decide, rfl, fun h => ?_⟩
  exact absurd (Option.some.inj hl) (by dsimp only; rw [h]; decide)

end Sys2Proof.Tests
end

section
/-! O21: a RegField of SPI_INIT is a read step and a write step. What a register access makes of a channel that exists,
the two halves of a RegField, and where SPI_INIT stands after the second. -/

namespace Sys2Proof.Machine

/-! Register accesses of an existing channel -/

theorem regRead_of_chan {c : Nat} {s : State} {ch : Channel} (h : s.chans[c]? = some ch) (r : Reg)
    (k : Half → State → Result) : regRead c r s k = k (ch.readValue r) (s.setChan c (ch.afterRead r)) := by
  simp [regRead, h]

theorem regWrite_of_chan {c : Nat} {s : State} {ch ch' : Channel} {r : Reg} {v : Half} (h : s.chans[c]? = some ch)
    (hw : ch.afterWrite r v = some ch') (k : State → Result) : regWrite c r v s k = k (s.setChan c ch') := by
  simp [regWrite, h, hw]

/-- A channel put back as it was leaves the state as it was. -/
theorem State.setChan_self {s : State} {c : Nat} {ch : Channel} (h : s.chans[c]? = some ch) : s.setChan c ch = s := by
  obtain ⟨hc, rfl⟩ := List.getElem?_eq_some_iff.mp h
  simp [State.setChan]

/-- The top frame put back replaces the frame that runs (R38). -/
theorem State.setTop_of_running {s : State} {f : Frame} {rest : List Frame} (h : s.running f rest) (g : Frame) :
    s.setTop g = { s with pc := g :: rest } := by
  simp [State.setTop, h.2]

/-! The channel that a RegField's write half leaves -/

/-- A write of a field's register always succeeds: CTRL2 for SSOE, CTRL1 for every other field (R23, R26, R70, R71). -/
theorem Channel.afterWrite_field (ch : Channel) (fld : Field) (v : Half) :
    ch.afterWrite fld.reg v = some (if fld = .ssoe then { ch with ctrl2 := v } else { ch with ctrl1 := v }) := by
  cases fld <;> rfl

theorem Field.insert_ssoe (old v : Half) : Field.ssoe.insert old v = (old &&& ~~~0x0004#16) ||| (v <<< 2) := rfl

/-! Where SPI_INIT stands after the write half -/

@[simp] theorem initAfter_op (count : Half) (n : Nat) (f : Frame) : (initAfter count n f).op = f.op := by
  unfold initAfter
  split
  · rfl
  · split
    · exact Frame.loop_op f count 2 13
    · rfl

@[simp] theorem initAfter_cfg (count : Half) (n : Nat) (f : Frame) : (initAfter count n f).cfg = f.cfg := by
  unfold initAfter
  split
  · rfl
  · split
    · exact Frame.loop_cfg f count 2 13
    · rfl

/-- A loop's end is back at its first line with the next index, or after the loop with the index it has (R39). -/
theorem Frame.loop_position (f : Frame) (count : Half) (first after : Nat) :
    ((f.loop count first after).line, (f.loop count first after).sub, (f.loop count first after).idx)
      = if f.idx.toNat + 1 < count.toNat then (first, 0, f.idx + 1#16) else (after, 0, f.idx) := by
  unfold Frame.loop
  split <;> rfl

/-- After the `k`-th RegField of `n`: the next RegField of the line, the next line, or after line 12 the end of the
loop's body (R133). -/
theorem initAfter_position (count : Half) (n k : Nat) (f : Frame) (hsub : f.sub = 2 * k + 1) (hline : f.line ≤ 12) :
    ((initAfter count n f).line, (initAfter count n f).sub, (initAfter count n f).idx)
      = if k + 1 < n then (f.line, 2 * (k + 1), f.idx)
        else if f.line < 12 then (f.line + 1, 0, f.idx)
        else if f.idx.toNat + 1 < count.toNat then (2, 0, f.idx + 1#16) else (13, 0, f.idx) := by
  by_cases hk : k + 1 < n
  · have hmore : f.sub + 1 < 2 * n := by omega
    have hnext : initAfter count n f = { f with sub := f.sub + 1 } := if_pos hmore
    rw [hnext, if_pos hk, hsub]
    rfl
  · have hlast : ¬ f.sub + 1 < 2 * n := by omega
    by_cases hl : f.line < 12
    · have hne : f.line ≠ 12 := by omega
      simp [initAfter, hlast, hk, hl, hne]
    · have heq : f.line = 12 := by omega
      simp only [initAfter, if_neg hlast, if_neg hk, if_neg hl, if_pos heq]
      exact Frame.loop_position f count 2 13

/-! The two halves of a RegField -/

/-- At lines 5 to 12 a step of SPI_INIT is a step of the line's RegFields (R133). -/
theorem exec_spiInit_of_fieldLine {s : State} {f : Frame} {rest : List Frame} {count : Half} {table : Word}
    (hrun : s.running f rest) (hop : f.op = .spiInit count table) (hlo : 5 ≤ f.line) (hhi : f.line ≤ 12) :
    exec f.op s = initLine count f s := by
  have hline : exec f.op s = execSpiInit count table s := by rw [hop]; rfl
  rw [hline, execSpiInit, operation_of_running hrun]
  have hlines : f.line = 5 ∨ f.line = 6 ∨ f.line = 7 ∨ f.line = 8 ∨ f.line = 9 ∨ f.line = 10 ∨ f.line = 11
      ∨ f.line = 12 := by omega
  rcases hlines with h | h | h | h | h | h | h | h <;> simp [h]

section RegField

variable {s : State} {f : Frame} {rest : List Frame} {ch : Channel} {fields : List (Field × Half)} {k : Nat}
  {fld : Field} {v : Half} (hrun : s.running f rest) (hch : s.chans[f.cfg.channel.toNat]? = some ch)
  (hfields : initFields f.line f.cfg = some fields) (hk : fields[k]? = some (fld, v))

include hrun hch hfields hk

/-- The read half keeps the register's word in the frame and changes nothing else (R70, R71, R82). -/
theorem initLine_readHalf (count : Half) (hsub : f.sub = 2 * k) :
    initLine count f s
      = .next { s with pc := { f with sub := f.sub + 1, tmp := ch.readValue fld.reg } :: rest } := by
  have hhalf : f.sub / 2 = k := by omega
  have heven : f.sub % 2 = 0 := by omega
  simp only [initLine, hfields, hhalf, hk, if_pos heven]
  rw [regRead_of_chan hch, Channel.afterRead_field, State.setChan_self hch, State.setTop_of_running hrun]

/-- The write half inserts the value into the word read and goes on to the next place (R9, R82). -/
theorem initLine_writeHalf (count : Half) (hsub : f.sub = 2 * k + 1) {ch' : Channel}
    (hw : ch.afterWrite fld.reg (fld.insert f.tmp v) = some ch') :
    initLine count f s
      = .next { s with
          chans := s.chans.set f.cfg.channel.toNat ch'
          pc := initAfter count fields.length f :: rest } := by
  have hhalf : f.sub / 2 = k := by omega
  have hodd : ¬ f.sub % 2 = 0 := by omega
  have hrun' : (s.setChan f.cfg.channel.toNat ch').running f rest := hrun
  simp only [initLine, hfields, hhalf, hk, if_neg hodd]
  rw [regWrite_of_chan hch hw, State.setTop_of_running hrun']
  rfl

end RegField

/-- Settles O21: the read half and the write half of a RegField, the register it writes, and the place after it. -/
theorem initProgramsEachField : Obligations.InitProgramsEachField := by
  intro s f rest count table ch fields k fld v hrun hop hlo hhi hch hfields hk
  rw [exec_spiInit_of_fieldLine hrun hop hlo hhi]
  refine ⟨fun hsub => ?_, fun hsub => ?_⟩
  · rw [initLine_readHalf hrun hch hfields hk count hsub, hsub]
  · refine ⟨_, _, initLine_writeHalf hrun hch hfields hk count hsub (ch.afterWrite_field fld _), initAfter_op _ _ _,
      initAfter_cfg _ _ _, initAfter_position count fields.length k f hsub hhi, ?_⟩
    by_cases hfld : fld = .ssoe
    · subst hfld
      rfl
    · simp [hfld, Field.insert]

end Sys2Proof.Machine
end

section
/-! What one step of the machine can do, said once: a line of the operation on top of the stack (`LineEffect`), and the
step of any agent (`StepEffect`). The invariants and the frame statements below are read off the two. -/

namespace Sys2Proof.Machine

/-! A channel accessed -/

/-- What a register access makes of a channel, the writes of the two control registers left out (R66 to R69). -/
inductive Channel.Accessed (ch : Channel) : Channel → Prop
  | unchanged : ch.Accessed ch
  | statusRead : ch.Accessed ch.afterStatusRead
  | dataRead : ch.Accessed ch.afterDataRead
  | dataWrite (v : Half) (htxe : ch.txe = true) : ch.Accessed (ch.afterDataWrite v)

theorem Channel.accessed_afterRead (ch : Channel) : ∀ r : Reg, ch.Accessed (ch.afterRead r)
  | .ctrl1 => .unchanged
  | .ctrl2 => .unchanged
  | .status => .statusRead
  | .data => .dataRead

/-- A register write is an access, or a write of a control register (R66, R69 to R71). -/
theorem Channel.accessed_of_afterWrite {ch ch' : Channel} {r : Reg} {v : Half} (h : ch.afterWrite r v = some ch') :
    ch.Accessed ch' ∨ ch' = { ch with ctrl1 := v } ∨ ch' = { ch with ctrl2 := v } := by
  rcases afterWrite_some h with ⟨-, rfl⟩ | ⟨-, rfl⟩ | ⟨-, rfl⟩ | ⟨-, htxe, rfl⟩
  · exact .inr (.inl rfl)
  · exact .inr (.inr rfl)
  · exact .inl .unchanged
  · exact .inl (.dataWrite v htxe)

theorem Channel.accessed_of_dataWrite {ch ch' : Channel} {v : Half} (h : ch.afterWrite .data v = some ch') :
    ch.Accessed ch' := by
  rcases afterWrite_some h with ⟨h, -⟩ | ⟨h, -⟩ | ⟨h, -⟩ | ⟨-, htxe, rfl⟩
  · cases h
  · cases h
  · cases h
  · exact .dataWrite v htxe

theorem Channel.Accessed.ctrl1 {ch ch' : Channel} (h : ch.Accessed ch') : ch'.ctrl1 = ch.ctrl1 := by
  cases h with
  | statusRead => exact ch.afterStatusRead_ctrl1
  | _ => rfl

theorem Channel.Accessed.ctrl2 {ch ch' : Channel} (h : ch.Accessed ch') : ch'.ctrl2 = ch.ctrl2 := by
  cases h with
  | statusRead => exact ch.afterStatusRead_ctrl2
  | _ => rfl

/-! A line of an operation -/

/-- What a line of the operation of `f`, the frame on top in `s`, makes of the state (R39, R133, R138, R141, R143, R144,
R162 to R171, R222). `header` is the wire form on top of the stack, which no run reaches. -/
inductive LineEffect (s : State) (f : Frame) : State → Prop
  | advance (g : Frame) (hop : g.op = f.op) : LineEffect s f (s.setTop g)
  | raise (x : FaultCause) (info : Word) : LineEffect s f (s.raise x info)
  | call (i : Instr) (hcall : calls s.params f i = true) : LineEffect s f (s.call i)
  | ret : LineEffect s f s.ret
  | access {c : Nat} {ch ch' : Channel} (hch : s.chans[c]? = some ch) (hacc : ch.Accessed ch') (g : Frame)
      (hop : g.op = f.op) : LineEffect s f ((s.setChan c ch').setTop g)
  | poll {c : Nat} {ch : Channel} (hch : s.chans[c]? = some ch) (g : Frame) (hop : g.op = f.op) (polls : Nat) :
      LineEffect s f { (s.setChan c ch.afterStatusRead).setTop g with polls := polls }
  | fieldWrite {count : Half} {table : Word} {fields : List (Field × Half)} {fld : Field} {v : Half} {ch ch' : Channel}
      (hf : f.op = .spiInit count table) (hlo : 5 ≤ f.line) (hhi : f.line ≤ 12)
      (hfields : initFields f.line f.cfg = some fields) (hk : fields[f.sub / 2]? = some (fld, v))
      (hodd : f.sub % 2 ≠ 0) (hch : s.chans[f.cfg.channel.toNat]? = some ch)
      (hw : ch.afterWrite fld.reg (fld.insert f.tmp v) = some ch') :
      LineEffect s f ((s.setChan f.cfg.channel.toNat ch').setTop (initAfter count fields.length f))
  | rawRegisterRead {a : Word} {c : Nat} {r : Reg} {ch : Channel} (hf : f.atLine (.spiRegRead a) 1)
      (hch : s.chans[c]? = some ch) :
      LineEffect s f { (s.setChan c (ch.afterRead r)).setTop f.next with result := (ch.readValue r).toWord }
  | rawMemoryRead {a : Word} (hf : f.atLine (.spiRegRead a) 1) :
      LineEffect s f { s.setTop f.next with result := s.mem.word a.toNat }
  | rawRegisterWrite {a v : Word} {c : Nat} {r : Reg} {ch ch' : Channel} (hf : f.atLine (.spiRegWrite a v) 1)
      (hch : s.chans[c]? = some ch) (hw : ch.afterWrite r v.lowHalf = some ch') :
      LineEffect s f ((s.setChan c ch').setTop f.next)
  | rawMemoryWrite {a v : Word} (hf : f.atLine (.spiRegWrite a v) 1) :
      LineEffect s f ({ s with mem := s.mem.putWord a.toNat v }.setTop f.next)
  | hdrWrite (i : Nat) (v : Half)
      (hf : (∃ ch port pin addr value, f.op = .accWrite ch port pin addr value)
        ∨ ∃ ch port pin addr count buf, f.atLine (.accRead ch port pin addr count buf) 1) :
      LineEffect s f ((s.setHdr i v).setTop f.next)
  | store {ch : Byte} {count : Half} {buf : Word} {u : State} (hf : f.atLine (.spiReceive ch count buf) 8)
      (hw : s.bufWrite buf f.idx.toNat f.tmp = some u) : LineEffect s f (u.setTop (f.loop count 5 9))
  | pin {port pin : Byte} {level : Bool}
      (hf : f.atLine (if level then .csDeassert port pin else .csAssert port pin) 3) :
      LineEffect s f ((s.pinWrite port pin level).setTop f.next)
  | session {ch port pin : Byte} (hf : f.atLine (.accInit ch port pin) 4) :
      LineEffect s f ((s.setInit ⟨ch, port, pin⟩).setTop f.next)
  | header {ch : Channel} (tx : Half) (hf : s.frameOk f = false) (hch : s.chans[s.lnk]? = some ch) :
      LineEffect s f (s.completeFrame s.lnk ch tx)

theorem LineEffect.of_assertLine {cond : Bool} {x : FaultCause} {info : Word} {f : Frame} {s t : State}
    (h : assertLine cond x info f s = .next t) : LineEffect s f t := by
  rcases assertLine_next h with ⟨-, rfl⟩ | ⟨-, rfl⟩
  · exact .advance f.next rfl
  · exact .raise x info

theorem LineEffect.of_chipSelect {level : Bool} {port pin : Byte} {f : Frame} {s t : State}
    (hop : f.op = if level then .csDeassert port pin else .csAssert port pin)
    (h : chipSelect level port pin f s = .next t) : LineEffect s f t := by
  rcases chipSelect_next h with ⟨-, h⟩ | ⟨-, h⟩ | ⟨hl, rfl⟩ | ⟨-, rfl⟩
  · exact .of_assertLine h
  · exact .of_assertLine h
  · exact .pin ⟨hop, hl⟩
  · exact .ret

section Running

variable {s t : State} {f : Frame} {rest : List Frame} (hrun : s.running f rest)

include hrun

/-- The top frame put back as it was leaves the state as it was. -/
theorem State.setTop_self : s.setTop f = s := by
  rw [State.setTop_of_running hrun, ← hrun.2]

theorem LineEffect.refl : LineEffect s f s :=
  (State.setTop_self hrun) ▸ .advance f rfl

theorem LineEffect.of_waitUntil {c : Nat} {fl : Flag} {v : Bool} (h : waitUntil c fl v f s = .next t) :
    LineEffect s f t := by
  obtain ⟨ch, hch, hcase⟩ := waitUntil_next h
  have hstay : (s.setChan c ch.afterStatusRead).setTop f = s.setChan c ch.afterStatusRead :=
    State.setTop_self (rest := rest) hrun
  rcases hcase with ⟨-, rfl⟩ | ⟨-, -, rfl⟩ | ⟨-, -, rfl⟩ | ⟨-, -, rfl⟩
  · exact LineEffect.poll (f := f) hch f.next rfl 0
  · exact hstay ▸ LineEffect.access (f := f) hch .statusRead f rfl
  · exact hstay ▸ LineEffect.poll (f := f) hch f rfl (s.polls + 1)
  · exact .raise _ _

theorem lineEffect_spiInit {count : Half} {table : Word} (hop : f.op = .spiInit count table)
    (h : execSpiInit count table s = .next t) : LineEffect s f t := by
  have hfield : 5 ≤ f.line → f.line ≤ 12 → initLine count f s = .next t → LineEffect s f t := by
    intro hlo hhi hl
    rcases initLine_next hl with ⟨-, rfl⟩ | ⟨fields, fld, v, ch, hfields, hk, hch, ⟨-, rfl⟩ | ⟨hodd, ch', hw, rfl⟩⟩
    · exact .raise _ _
    · exact .access hch .unchanged _ rfl
    · exact .fieldWrite hop hlo hhi hfields hk hodd hch hw
  rw [execSpiInit, operation_of_running hrun] at h
  split at h
  case h_1 => cases h; exact .advance _ rfl
  case h_2 =>
    obtain ⟨-, cfg, -, rfl⟩ := initRecord_next h
    exact .advance _ rfl
  case h_3 => exact .of_assertLine h
  case h_4 => cases h; exact .advance _ rfl
  case h_13 => cases h; exact .ret
  case h_14 => cases h
  all_goals exact hfield (by omega) (by omega) h

theorem lineEffect_spiTransfer {ch : Byte} {count : Half} {buf : Word}
    (h : execSpiTransfer ch count buf s = .next t) : LineEffect s f t := by
  rw [execSpiTransfer, operation_of_running hrun] at h
  split at h
  case h_4 =>
    obtain ⟨-, rfl⟩ := loopHead_next h
    exact .advance _ rfl
  case h_5 => exact .of_waitUntil hrun h
  case h_6 =>
    obtain ⟨e, -, rfl⟩ := fetchCell_next h
    exact .advance _ rfl
  case h_7 =>
    obtain ⟨c, c', hc, hw, hk⟩ := regWrite_next h
    cases hk
    exact .access hc (Channel.accessed_of_dataWrite hw) _ (Frame.loop_op _ _ _ _)
  case h_8 => exact .of_waitUntil hrun h
  case h_9 => exact .of_waitUntil hrun h
  case h_10 =>
    obtain ⟨c, hc, hk⟩ := regRead_next h
    cases hk
    exact .access hc .dataRead _ rfl
  case h_11 =>
    obtain ⟨c, hc, hk⟩ := regRead_next h
    cases hk
    exact .access hc .statusRead _ rfl
  case h_12 => cases h; exact .ret
  case h_13 => cases h
  all_goals exact .of_assertLine h

theorem lineEffect_spiReceive {ch : Byte} {count : Half} {buf : Word} (hop : f.op = .spiReceive ch count buf)
    (h : execSpiReceive ch count buf s = .next t) : LineEffect s f t := by
  rw [execSpiReceive, operation_of_running hrun] at h
  split at h
  case h_4 =>
    obtain ⟨-, rfl⟩ := loopHead_next h
    exact .advance _ rfl
  case h_5 =>
    obtain ⟨c, c', hc, hw, hk⟩ := regWrite_next h
    cases hk
    exact .access hc (Channel.accessed_of_dataWrite hw) _ rfl
  case h_6 => exact .of_waitUntil hrun h
  case h_7 =>
    obtain ⟨c, hc, hk⟩ := regRead_next h
    cases hk
    exact .access hc .dataRead _ rfl
  case h_8 hl =>
    obtain ⟨u, hu, rfl⟩ := storeCell_next h
    exact .store ⟨hop, hl⟩ hu
  case h_9 => cases h; exact .ret
  case h_10 => cases h
  all_goals exact .of_assertLine h

theorem lineEffect_spiRegWrite {a v : Word} (hop : f.op = .spiRegWrite a v)
    (h : execSpiRegWrite a v s = .next t) : LineEffect s f t := by
  rw [execSpiRegWrite, operation_of_running hrun] at h
  split at h
  case h_1 hl =>
    rcases memWrite_next h with ⟨-, ⟨c, r, ch, ch', -, hch, hw, hk⟩ | ⟨-, -, hk⟩⟩
    · cases hk
      exact .rawRegisterWrite ⟨hop, hl⟩ hch hw
    · cases hk
      exact .rawMemoryWrite ⟨hop, hl⟩
  case h_2 => cases h; exact .ret
  case h_3 => cases h

theorem lineEffect_spiRegRead {a : Word} (hop : f.op = .spiRegRead a) (h : execSpiRegRead a s = .next t) :
    LineEffect s f t := by
  rw [execSpiRegRead, operation_of_running hrun] at h
  split at h
  case h_1 hl =>
    rcases memRead_next h with ⟨-, ⟨c, r, ch, -, hch, hk⟩ | ⟨-, -, hk⟩⟩
    · cases hk
      exact .rawRegisterRead ⟨hop, hl⟩ hch
    · cases hk
      exact .rawMemoryRead ⟨hop, hl⟩
  case h_2 => cases h; exact .ret
  case h_3 => cases h

theorem lineEffect_accInit {ch port pin : Byte} (hop : f.op = .accInit ch port pin)
    (h : execAccInit ch port pin s = .next t) : LineEffect s f t := by
  rw [execAccInit, operation_of_running hrun] at h
  split at h
  case h_4 hl => cases h; exact .session ⟨hop, hl⟩
  case h_5 => cases h; exact .ret
  case h_6 => cases h
  case h_1 hl | h_2 hl | h_3 hl => cases h; exact .call _ (by simp [calls, hop, hl]; decide)

theorem lineEffect_accWrite {ch port pin addr value : Byte} (hop : f.op = .accWrite ch port pin addr value)
    (h : execAccWrite ch port pin addr value s = .next t) : LineEffect s f t := by
  rw [execAccWrite, operation_of_running hrun] at h
  split at h
  case h_1 =>
    obtain ⟨-, rfl⟩ := headerLine_next h
    exact .hdrWrite _ _ (.inl ⟨_, _, _, _, _, hop⟩)
  case h_2 => cases h; exact .hdrWrite _ _ (.inl ⟨_, _, _, _, _, hop⟩)
  case h_6 => cases h; exact .ret
  case h_7 => cases h
  case h_3 hl | h_4 hl | h_5 hl => cases h; exact .call _ (by simp [calls, hop, hl])

theorem lineEffect_accRead {ch port pin addr : Byte} {count : Half} {buf : Word}
    (hop : f.op = .accRead ch port pin addr count buf)
    (h : execAccRead ch port pin addr count buf s = .next t) : LineEffect s f t := by
  rw [execAccRead, operation_of_running hrun] at h
  split at h
  case h_1 hl =>
    obtain ⟨-, rfl⟩ := headerLine_next h
    exact .hdrWrite _ _ (.inr ⟨_, _, _, _, _, _, hop, hl⟩)
  case h_6 => cases h; exact .ret
  case h_7 => cases h
  case h_2 hl | h_3 hl | h_4 hl | h_5 hl => cases h; exact .call _ (by simp [calls, hop, hl])

theorem LineEffect.of_headerFrame {b : Byte} (hf : s.frameOk f = false) (h : headerFrame b s = .next t) :
    LineEffect s f t := by
  rcases headerFrame_next h with rfl | ⟨ch, hch, -, -, rfl⟩
  · exact .refl hrun
  · exact .header _ hf hch

/-- A step of the operation on top of the stack is one of the effects of a line (R39). -/
theorem lineEffect_of_exec (h : exec f.op s = .next t) : LineEffect s f t := by
  cases hop : f.op with rw [hop] at h
  | spiInit count table => exact lineEffect_spiInit hrun hop h
  | spiTransfer ch count buf => exact lineEffect_spiTransfer hrun h
  | spiReceive ch count buf => exact lineEffect_spiReceive hrun hop h
  | spiRegWrite a v => exact lineEffect_spiRegWrite hrun hop h
  | spiRegRead a => exact lineEffect_spiRegRead hrun hop h
  | accInit ch port pin => exact lineEffect_accInit hrun hop h
  | accWrite ch port pin addr value => exact lineEffect_accWrite hrun hop h
  | accRead ch port pin addr count buf => exact lineEffect_accRead hrun hop h
  | csAssert port pin =>
    exact .of_chipSelect (level := false) hop ((operation_of_running hrun).symm.trans h)
  | csDeassert port pin =>
    exact .of_chipSelect (level := true) hop ((operation_of_running hrun).symm.trans h)
  | wireWriteMb a | wireReadMb a | wireWriteSb a | wireReadSb a =>
    exact .of_headerFrame hrun (by simp [State.frameOk, hop]) h

end Running

/-! HOST's commands -/

/-- An answer of the decoder is no wire form. -/
def onlyCommand (r : Except Reject Instr) : Prop := ∀ i, r = .ok i → i.opcode ≠ none

theorem onlyCommand_ite {c : Prop} [Decidable c] {a b : Except Reject Instr} (ha : onlyCommand a)
    (hb : onlyCommand b) : onlyCommand (if c then a else b) := by
  split <;> assumption

/-- A descriptor decodes to a command: no wire form has a descriptor (R90, R92, R110). -/
theorem onlyCommand_decode (d : Descriptor) : onlyCommand (decode d) := by
  unfold decode
  dsimp only
  repeat' apply onlyCommand_ite
  all_goals simp [onlyCommand, Instr.opcode]

/-- A step of a command is one of its operation (R38, R90). -/
theorem exec_eq_operation {i : Instr} (hi : i.opcode ≠ none) (s : State) : ∃ line, exec i s = operation i line s := by
  cases i with
  | wireWriteMb a | wireReadMb a | wireWriteSb a | wireReadSb a => exact absurd rfl hi
  | _ =>
    simp only [exec, execSpiInit, execSpiTransfer, execSpiReceive, execSpiRegWrite, execSpiRegRead, execAccInit,
      execAccWrite, execAccRead, execCsAssert, execCsDeassert]
    exact ⟨_, rfl⟩

/-- The command port in IDLE takes a command HOST may issue, and raises IllegalCommand at another (R90, R114). -/
theorem exec_of_idle {i : Instr} {s : State} (hm : s.mode = .idle) (hi : i.opcode ≠ none) :
    exec i s = if i.issuable then .next (s.accept i) else .next (s.raise .illegalCommand i.word0) := by
  obtain ⟨line, hline⟩ := exec_eq_operation hi s
  rw [hline, operation_of_idle hm]

/-- A command presented in IDLE is accepted or raises IllegalCommand (R90, R114, R219). -/
theorem issue_of_idle (d : Descriptor) {s : State} (hm : s.mode = .idle) :
    (∃ i, decode d = .ok i ∧ i.issuable = true ∧ issue d s = .next (s.accept i))
      ∨ ∃ info, issue d s = .next (s.raise .illegalCommand info) := by
  unfold issue
  split
  · rename_i i hd
    rw [exec_of_idle hm (onlyCommand_decode d i hd)]
    cases hi : i.issuable with
    | true => exact .inl ⟨i, hd, hi, rfl⟩
    | false => exact .inr ⟨_, rfl⟩
  · exact .inr ⟨_, rfl⟩

/-! A step -/

/-- What a step makes of the state (R6, R79, R90, R192, R193, R206, R240): nothing but the turn spent, an act of HOST, a
line of SEQ's, or a step of a link agent. -/
inductive StepEffect (s : State) : State → Prop
  | nothing : StepEffect s s.spendTurn
  | accept {d : Descriptor} {rest : List HostAct} {i : Instr} (hact : s.hostActs (.command d))
      (hinbox : s.inbox = .command d :: rest) (hi : i.issuable = true) :
      StepEffect s ({ s.spendTurn with inbox := rest }.accept i)
  | reject {d : Descriptor} {rest : List HostAct} (hact : s.hostActs (.command d))
      (hinbox : s.inbox = .command d :: rest) (info : Word) :
      StepEffect s ({ s.spendTurn with inbox := rest }.raise .illegalCommand info)
  | reset {rest : List HostAct} (hact : s.hostActs .reset) (hinbox : s.inbox = .reset :: rest) :
      StepEffect s { s.spendTurn with inbox := rest }.hostReset
  | buffer {ref : Word} {cells : List Half} {rest : List HostAct} (hact : s.hostActs (.buffer ref cells))
      (hinbox : s.inbox = .buffer ref cells :: rest) :
      StepEffect s { s.spendTurn with inbox := rest, mem := s.mem.putCells ref cells }
  | table {ref : Word} {records : List CfgRecord} {rest : List HostAct} (hact : s.hostActs (.table ref records))
      (hinbox : s.inbox = .table ref records :: rest) :
      StepEffect s { s.spendTurn with inbox := rest, mem := s.mem.putRecords ref records }
  | line {f : Frame} {rest : List Frame} {t : State} (hseq : s.seqOn f) (hrun : s.running f rest)
      (h : LineEffect s.spendTurn f t) : StepEffect s t
  | linkStart {c : Nat} {ch : Channel} (hturn : s.nextTurn = some (.link c)) (hch : s.chans[c]? = some ch)
      (hen : ch.startEnabled = true) : StepEffect s { s.spendTurn.setChan c ch.started with lnk := c }
  | linkComplete {c : Nat} {ch : Channel} (hturn : s.nextTurn = some (.link c)) (hch : s.chans[c]? = some ch)
      (hen : ch.completeEnabled = true) (tx : Half) : StepEffect s (s.spendTurn.completeFrame c ch tx)
  | linkOther {c : Nat} {ch : Channel} {e : LinkEffect} (hturn : s.nextTurn = some (.link c))
      (hch : s.chans[c]? = some ch) (he : s.spendTurn.linkOtherEffect c ch = some e) :
      StepEffect s (s.spendTurn.linkOtherStep c ch e)

theorem stepEffect_of_host {s t : State} (hturn : s.nextTurn = some .host) (h : hostStep s.spendTurn = .next t) :
    StepEffect s t := by
  rcases hostStep_next h with rfl | ⟨a, rest, hinbox, hallow, hact⟩
  · exact .nothing
  · have hacts : s.hostActs a := ⟨hturn, congrArg List.head? hinbox, hallow⟩
    cases a with
    | command d =>
      have hidle : s.mode = .idle := by simpa [State.actAllowed] using hallow
      have hres : issue d { s.spendTurn with inbox := rest } = .next t := hact
      rcases issue_of_idle d (s := { s.spendTurn with inbox := rest }) hidle with ⟨i, -, hi, ht⟩ | ⟨info, ht⟩
      · cases hres.symm.trans ht
        exact .accept hacts hinbox hi
      · cases hres.symm.trans ht
        exact .reject hacts hinbox info
    | reset => cases hact; exact .reset hacts hinbox
    | buffer ref cells => cases hact; exact .buffer hacts hinbox
    | table ref records => cases hact; exact .table hacts hinbox

/-- The header byte of a frame in flight completes it (R110, R193). -/
theorem headerFrame_of_frame {s : State} {ch : Channel} (b : Byte) (hch : s.chans[s.lnk]? = some ch)
    (hen : ch.completeEnabled = true) (hwide : ch.wide = false) :
    headerFrame b s = .next (s.completeFrame s.lnk ch b.toHalf) := by
  simp [headerFrame, hch, hen, hwide]

theorem stepEffect_of_link {s t : State} {c : Nat} (hturn : s.nextTurn = some (.link c))
    (h : linkStep c s.spendTurn = .next t) : StepEffect s t := by
  rcases linkStep_next h with rfl | ⟨ch, hch, ⟨hen, rfl⟩ | ⟨hen, hwide, -, hx⟩ | ⟨hen, rfl⟩ | ⟨-, -, e, he, rfl⟩⟩
  · exact .nothing
  · exact .linkStart hturn hch hen
  · obtain ⟨b, -, hb⟩ := exec_decodeHeader ch.shift.lowByte { s.spendTurn with lnk := c }
    cases (hb.trans (headerFrame_of_frame b hch hen hwide)).symm.trans hx
    exact .linkComplete hturn hch hen b.toHalf
  · exact .linkComplete hturn hch hen _
  · exact .linkOther hturn hch he

/-- Every step that answers a next state has one of these effects. -/
theorem stepEffect_of_step {s t : State} (h : step s = .next t) : StepEffect s t := by
  rcases step_next h with ⟨-, rfl⟩ | ⟨a, hturn, ha⟩
  · exact .nothing
  · cases a with
    | host => exact stepEffect_of_host hturn ha
    | link c => exact stepEffect_of_link hturn ha
    | seq =>
      rcases seqStep_next ha with ⟨-, rfl⟩ | ⟨f, rest, hrun, hx⟩
      · exact .nothing
      · exact .line ⟨hturn, hrun.1, congrArg List.head? hrun.2⟩ hrun (lineEffect_of_exec hrun hx)

end Sys2Proof.Machine
end

section
/-! O55, O58, O52: the canonical forms, the fault registers and the entry into FAULT, read off the effect of a step. -/

namespace Sys2Proof.Machine

/-! The canonical forms (log 9, 12, 13) -/

theorem State.listsOk_iff (s : State) : s.listsOk = true ↔ s.mem.wf = true ∧ sessionsRise s.inits = true := by
  simp [State.listsOk]

theorem LineEffect.keeps_listsOk {s t : State} {f : Frame} (h : LineEffect s f t) (hs : s.listsOk = true) :
    t.listsOk = true := by
  obtain ⟨hmem, hinits⟩ := s.listsOk_iff.mp hs
  cases h with
  | rawMemoryWrite hf => exact (State.listsOk_iff _).mpr ⟨Memory.wf_putWord _ _ _ hmem, hinits⟩
  | store hf hw =>
    rcases bufWrite_some hw with ⟨-, -, rfl⟩ | ⟨-, -, rfl⟩
    · exact hs
    · exact (State.listsOk_iff _).mpr ⟨Memory.wf_putCells _ _ _ hmem, hinits⟩
  | session hf => exact (State.listsOk_iff _).mpr ⟨hmem, sessionsRise_insertSession _ _ hinits⟩
  | ret => simpa [State.listsOk] using hs
  | _ => exact hs

/-- Settles O55, by cases on what the step does. -/
theorem canonicalFormsKept : Obligations.CanonicalFormsKept := by
  intro s t hs hstep
  obtain ⟨hmem, hinits⟩ := s.listsOk_iff.mp hs
  cases stepEffect_of_step hstep with
  | line hseq hrun h => exact h.keeps_listsOk hs
  | reset => exact (State.listsOk_iff _).mpr ⟨hmem, rfl⟩
  | buffer => exact (State.listsOk_iff _).mpr ⟨Memory.wf_putCells _ _ _ hmem, hinits⟩
  | table => exact (State.listsOk_iff _).mpr ⟨Memory.wf_putRecords _ _ _ hmem, hinits⟩
  | _ => exact hs

/-! The entry into FAULT (R222) -/

/-- The codes of R212 are 1 to 8. -/
theorem FaultCause.code_range (x : FaultCause) : 1 ≤ x.code.toNat ∧ x.code.toNat ≤ 8 := by
  cases x <;> decide

/-- A return leaves the sequencer in RUN or IDLE (R39). -/
theorem State.ret_mode (s : State) : s.ret.mode = s.mode ∨ s.ret.mode = .idle := by
  unfold State.ret
  split
  · exact .inl rfl
  · exact .inr rfl

/-- A line raises a fault, or leaves the fault registers and is not in FAULT. -/
theorem LineEffect.raise_or_keeps {s t : State} {f : Frame} (h : LineEffect s f t) (hrun : s.mode = .run) :
    (∃ x info, t = s.raise x info) ∨ (t.mode ≠ .fault ∧ t.faultCode = s.faultCode ∧ t.faultInfo = s.faultInfo) := by
  have hmode : s.mode ≠ .fault := by simp [hrun]
  cases h with
  | raise x info => exact .inl ⟨x, info, rfl⟩
  | store hf hw =>
    rcases bufWrite_some hw with ⟨-, -, rfl⟩ | ⟨-, -, rfl⟩ <;> exact .inr ⟨hmode, rfl, rfl⟩
  | ret =>
    refine .inr ⟨fun hfault => ?_, by simp, by simp⟩
    rcases s.ret_mode with h | h
    · exact hmode (h.symm.trans hfault)
    · exact nomatch h.symm.trans hfault
  | _ => exact .inr ⟨hmode, rfl, rfl⟩

/-- A step raises a fault, beside spending the turn and taking HOST's act; or is a reset; or leaves the fault registers
and whether the state is FAULT (R222, R224, R240). -/
theorem StepEffect.raise_or_reset_or_keeps {s t : State} (h : StepEffect s t) :
    (∃ x info inbox, (inbox = s.inbox ∨ ∃ a, s.inbox = a :: inbox)
        ∧ t = { s.spendTurn with inbox := inbox }.raise x info)
      ∨ (t.mode = .idle ∧ t.faultCode = 0#8 ∧ t.faultInfo = 0#32)
      ∨ ((t.mode = .fault ↔ s.mode = .fault) ∧ t.faultCode = s.faultCode ∧ t.faultInfo = s.faultInfo) := by
  cases h with
  | reject hact hinbox info => exact .inl ⟨_, info, _, .inr ⟨_, hinbox⟩, rfl⟩
  | line hseq hrun h =>
    rcases h.raise_or_keeps hrun.1 with ⟨x, info, rfl⟩ | ⟨hm, hcode, hinfo⟩
    · exact .inl ⟨x, info, s.inbox, .inl rfl, rfl⟩
    · exact .inr (.inr ⟨by simp [hm, hrun.1], hcode, hinfo⟩)
  | accept hact hinbox hi =>
    have hidle : s.mode = .idle := by simpa [State.actAllowed] using hact.2.2
    exact .inr (.inr ⟨by simp [hidle], rfl, rfl⟩)
  | reset => exact .inr (.inl ⟨rfl, rfl, rfl⟩)
  | _ => exact .inr (.inr ⟨Iff.rfl, rfl, rfl⟩)

/-- Settles O52: a step that enters FAULT is `raise` around the spent turn and the command taken. -/
theorem faultEntryChangesNothingElse : Obligations.FaultEntryChangesNothingElse := by
  intro s t hstep hs ht
  rcases (stepEffect_of_step hstep).raise_or_reset_or_keeps with
    ⟨x, info, inbox, hinbox, rfl⟩ | ⟨hidle, -, -⟩ | ⟨hmode, -, -⟩
  · exact ⟨x.code, info, inbox, x.code_range.1, x.code_range.2, hinbox, rfl, rfl, fun _ => rfl⟩
  · exact nomatch hidle.symm.trans ht
  · exact absurd (hmode.mp ht) hs

/-- Settles O58: only a raise enters FAULT, with a code of the table, and only a reset leaves it, with both registers
0. -/
theorem faultRegistersKept : Obligations.FaultRegistersKept := by
  intro s t hs hstep
  rcases (stepEffect_of_step hstep).raise_or_reset_or_keeps with
    ⟨x, info, inbox, -, rfl⟩ | ⟨hidle, hcode, hinfo⟩ | ⟨hmode, hcode, hinfo⟩
  · have hrange := x.code_range
    simp [State.faultRegsOk, hrange]
  · simp [State.faultRegsOk, hidle, hcode, hinfo]
  · simpa only [State.faultRegsOk, hmode, hcode, hinfo] using hs

end Sys2Proof.Machine
end

section
/-! O56: the flags agree with the hidden state, channel by channel. -/

namespace Sys2Proof.Machine

/-! The flags (R35, R194) -/

theorem Channel.settled_iff (ch : Channel) : ch.settled = true ↔ (ch.shiftActive = true → ch.bsy = true)
    ∧ (ch.bsy = true → ch.shiftActive = true ∨ ch.txe = false) ∧ (ch.ovrArm = true → ch.ovr = true) := by
  unfold Channel.settled
  grind

theorem Channel.Accessed.settled {ch ch' : Channel} (h : ch.Accessed ch') (hs : ch.settled = true) :
    ch'.settled = true := by
  rw [settled_iff] at hs ⊢
  obtain ⟨hshift, hbsy, harm⟩ := hs
  cases h with
  | unchanged => exact ⟨hshift, hbsy, harm⟩
  | statusRead =>
    unfold Channel.afterStatusRead
    split
    · exact ⟨hshift, hbsy, nofun⟩
    · exact ⟨hshift, hbsy, harm⟩
  | dataRead => exact ⟨hshift, hbsy, fun h => (Bool.or_eq_true_iff.mp h).elim harm id⟩
  | dataWrite v htxe => exact ⟨hshift, fun _ => .inr rfl, harm⟩

theorem Channel.settled_of_afterWrite {ch ch' : Channel} {r : Reg} {v : Half} (h : ch.afterWrite r v = some ch')
    (hs : ch.settled = true) : ch'.settled = true := by
  rcases Channel.accessed_of_afterWrite h with h | rfl | rfl
  · exact h.settled hs
  · exact hs
  · exact hs

/-- LINK_START shows BSY with the frame (R192). -/
theorem Channel.started_settled {ch : Channel} (hs : ch.settled = true) : ch.started.settled = true := by
  rw [settled_iff] at hs ⊢
  exact ⟨fun _ => rfl, fun _ => .inl rfl, hs.2.2⟩

/-- LINK_COMPLETE leaves BSY only where a word waits, and an armed overrun pending (R193). -/
theorem Channel.completed_settled {ch : Channel} (rx : Half) (hs : ch.settled = true) :
    (ch.completed rx).settled = true := by
  rw [settled_iff] at hs ⊢
  obtain ⟨-, -, harm⟩ := hs
  refine ⟨nofun, fun h => .inr ?_, fun h => ?_⟩
  · simpa [Channel.completed] using (Bool.and_eq_true_iff.mp h).2
  · simp [Channel.completed, harm h]

/-- A settled channel with BSY = 0 and TXE = 1 has nothing pending (R194). -/
theorem Channel.pending_eq_nil {ch : Channel} (hs : ch.settled = true) (hbsy : ch.bsy = false) (htxe : ch.txe = true) :
    ch.pending = [] := by
  obtain ⟨hshift, -, -⟩ := ch.settled_iff.mp hs
  have hidle : ch.shiftActive = false := by
    cases h : ch.shiftActive with
    | false => rfl
    | true => exact absurd (hshift h) (by simp [hbsy])
  simp [Channel.pending, hidle, htxe]

theorem State.flagsOk_iff (s : State) : s.flagsOk = true ↔ ∀ ch ∈ s.chans, ch.settled = true := by
  simp [State.flagsOk]

/-- A channel put back settled keeps the flags in agreement. -/
theorem State.flagsOk_of_set {s t : State} {c : Nat} {ch' : Channel} (hs : s.flagsOk = true)
    (hchans : t.chans = s.chans.set c ch') (hch' : ch'.settled = true) : t.flagsOk = true := by
  rw [State.flagsOk_iff] at hs ⊢
  intro x hx
  rcases List.mem_or_eq_of_mem_set (hchans ▸ hx) with hx | rfl
  · exact hs x hx
  · exact hch'

theorem State.settled_of_getElem? {s : State} {c : Nat} {ch : Channel} (hs : s.flagsOk = true)
    (hch : s.chans[c]? = some ch) : ch.settled = true :=
  s.flagsOk_iff.mp hs ch (List.mem_of_getElem? hch)

theorem LineEffect.keeps_flagsOk {s t : State} {f : Frame} (h : LineEffect s f t) (hs : s.flagsOk = true) :
    t.flagsOk = true := by
  cases h with
  | access hch hacc g hop => exact State.flagsOk_of_set hs rfl (hacc.settled (State.settled_of_getElem? hs hch))
  | poll hch g hop n =>
    exact State.flagsOk_of_set hs rfl (Channel.Accessed.statusRead.settled (State.settled_of_getElem? hs hch))
  | rawRegisterRead hf hch =>
    exact State.flagsOk_of_set hs rfl ((Channel.accessed_afterRead _ _).settled (State.settled_of_getElem? hs hch))
  | fieldWrite hf hlo hhi hfields hk hodd hch hw =>
    exact State.flagsOk_of_set hs rfl (Channel.settled_of_afterWrite hw (State.settled_of_getElem? hs hch))
  | rawRegisterWrite hf hch hw =>
    exact State.flagsOk_of_set hs rfl (Channel.settled_of_afterWrite hw (State.settled_of_getElem? hs hch))
  | header tx hf hch =>
    exact State.flagsOk_of_set hs rfl (Channel.completed_settled _ (State.settled_of_getElem? hs hch))
  | store hf hw =>
    rcases bufWrite_some hw with ⟨-, -, rfl⟩ | ⟨-, -, rfl⟩ <;> exact hs
  | ret => simpa [State.flagsOk] using hs
  | _ => exact hs

theorem StepEffect.keeps_flagsOk {s t : State} (h : StepEffect s t) (hrefuse : s.params.linkOther = .refuse)
    (hs : s.flagsOk = true) : t.flagsOk = true := by
  cases h with
  | line hseq hrun h => exact h.keeps_flagsOk hs
  | reset => simp [State.flagsOk_iff, Channel.settled, Channel.atReset]
  | linkStart hturn hch hen =>
    exact State.flagsOk_of_set hs rfl (Channel.started_settled (State.settled_of_getElem? hs hch))
  | linkComplete hturn hch hen tx =>
    exact State.flagsOk_of_set hs rfl (Channel.completed_settled _ (State.settled_of_getElem? hs hch))
  | linkOther hturn hch he => exact nomatch (linkOtherEffect_refuse (s := s.spendTurn) hrefuse _ _).symm.trans he
  | _ => exact hs

/-- Settles O56: every channel a step puts back is settled, and a settled one with BSY = 0 and TXE = 1 has nothing
pending. -/
theorem flagsSettledKept : Obligations.FlagsSettledKept := by
  intro s t hrefuse hs hstep
  have ht := (stepEffect_of_step hstep).keeps_flagsOk hrefuse hs
  exact ⟨ht, fun ch hch => Channel.pending_eq_nil (t.flagsOk_iff.mp ht ch hch)⟩

end Sys2Proof.Machine
end

section
/-! O54: where the sequencer stands. The position of a running sequencer is its top frame with what is below it
(`State.Stands`); an operation's step keeps it and stops at none of the model's own faults (`Lands`), line by line. -/

namespace Sys2Proof.Machine

/-! The lines of each operation (R38) -/

section Lines

variable {s : State} {f : Frame}

theorem frameOk_spiInit {count : Half} {table : Word} (hop : f.op = .spiInit count table) : s.frameOk f = true ↔
    (1 ≤ f.line ∧ f.line ≤ 13) ∧ (4 ≤ f.line → f.line ≤ 12 → f.cfg.channel.toNat < s.params.nCh)
      ∧ (5 ≤ f.line → f.line ≤ 12 → s.initPlaceOk f = true) := by
  simp only [State.frameOk, hop, Bool.and_eq_true, Bool.or_eq_true, decide_eq_true_eq, and_assoc]
  grind

theorem frameOk_spiTransfer {ch : Byte} {count : Half} {buf : Word} (hop : f.op = .spiTransfer ch count buf) :
    s.frameOk f = true ↔ (1 ≤ f.line ∧ f.line ≤ 12) ∧ (f.line = 1 ∨ ch.toNat < s.params.nCh) := by
  simp [State.frameOk, hop]

theorem frameOk_spiReceive {ch : Byte} {count : Half} {buf : Word} (hop : f.op = .spiReceive ch count buf) :
    s.frameOk f = true ↔ (1 ≤ f.line ∧ f.line ≤ 9) ∧ (f.line = 1 ∨ ch.toNat < s.params.nCh) := by
  simp [State.frameOk, hop]

theorem frameOk_spiRegWrite {a v : Word} (hop : f.op = .spiRegWrite a v) :
    s.frameOk f = true ↔ 1 ≤ f.line ∧ f.line ≤ 2 := by
  simp [State.frameOk, hop]

theorem frameOk_spiRegRead {a : Word} (hop : f.op = .spiRegRead a) :
    s.frameOk f = true ↔ 1 ≤ f.line ∧ f.line ≤ 2 := by
  simp [State.frameOk, hop]

theorem frameOk_accInit {ch port pin : Byte} (hop : f.op = .accInit ch port pin) :
    s.frameOk f = true ↔ 1 ≤ f.line ∧ f.line ≤ 5 := by
  simp [State.frameOk, hop]

theorem frameOk_accWrite {ch port pin addr value : Byte} (hop : f.op = .accWrite ch port pin addr value) :
    s.frameOk f = true ↔ 1 ≤ f.line ∧ f.line ≤ 6 := by
  simp [State.frameOk, hop]

theorem frameOk_accRead {ch port pin addr : Byte} {count : Half} {buf : Word}
    (hop : f.op = .accRead ch port pin addr count buf) : s.frameOk f = true ↔ 1 ≤ f.line ∧ f.line ≤ 6 := by
  simp [State.frameOk, hop]

theorem frameOk_chipSelect {level : Bool} {port pin : Byte}
    (hop : f.op = if level then .csDeassert port pin else .csAssert port pin) :
    s.frameOk f = true ↔ 1 ≤ f.line ∧ f.line ≤ 4 := by
  cases level <;> simp [State.frameOk, hop]

end Lines

/-! The call graph (R117, R160) -/

/-- How many operations deep an operation may call. -/
def callDepth : Instr → Nat
  | .accInit _ _ _ => 2
  | .accWrite _ _ _ _ _ => 1
  | .accRead _ _ _ _ _ _ => 1
  | _ => 0

theorem callDepth_le (i : Instr) : callDepth i ≤ 2 := by
  cases i <;> simp [callDepth]

/-- ACC_INIT calls ACC_WRITE from its lines 1 to 3; ACC_WRITE and ACC_READ call operations that call none. -/
theorem calls_inv {p : Params} {f : Frame} {i : Instr} (h : calls p f i = true) :
    ((∃ ch port pin, f.op = .accInit ch port pin) ∧ (1 ≤ f.line ∧ f.line ≤ 3) ∧ callDepth i = 1 ∧ i.opcode ≠ none)
      ∨ (((∃ ch port pin addr value, f.op = .accWrite ch port pin addr value)
          ∨ ∃ ch port pin addr count buf, f.op = .accRead ch port pin addr count buf)
        ∧ (1 ≤ f.line ∧ f.line ≤ 5) ∧ callDepth i = 0 ∧ i.opcode ≠ none) := by
  unfold calls at h
  split at h
  · rename_i ch port pin hop
    simp only [Bool.or_eq_true, Bool.and_eq_true, beq_iff_eq] at h
    refine .inl ⟨⟨ch, port, pin, hop⟩, ?_⟩
    rcases h with (⟨hl, rfl⟩ | ⟨hl, rfl⟩) | ⟨hl, rfl⟩ <;> simp [hl, callDepth, Instr.opcode]
  · rename_i ch port pin addr value hop
    simp only [Bool.or_eq_true, Bool.and_eq_true, beq_iff_eq] at h
    refine .inr ⟨.inl ⟨ch, port, pin, addr, value, hop⟩, ?_⟩
    rcases h with (⟨hl, rfl⟩ | ⟨hl, rfl⟩) | ⟨hl, rfl⟩ <;> simp [hl, callDepth, Instr.opcode]
  · rename_i ch port pin addr count buf hop
    simp only [Bool.or_eq_true, Bool.and_eq_true, beq_iff_eq] at h
    refine .inr ⟨.inr ⟨ch, port, pin, addr, count, buf, hop⟩, ?_⟩
    rcases h with ((⟨hl, rfl⟩ | ⟨hl, rfl⟩) | ⟨hl, rfl⟩) | ⟨hl, rfl⟩ <;> simp [hl, callDepth, Instr.opcode]
  · cases h

theorem calls_opcode {p : Params} {f : Frame} {i : Instr} (h : calls p f i = true) : i.opcode ≠ none := by
  rcases calls_inv h with ⟨-, -, -, hi⟩ | ⟨-, -, -, hi⟩ <;> exact hi

theorem calls_depth {p : Params} {f : Frame} {i : Instr} (h : calls p f i = true) : callDepth i < callDepth f.op := by
  rcases calls_inv h with ⟨⟨_, _, _, hop⟩, -, hi, -⟩ | ⟨⟨_, _, _, _, _, hop⟩ | ⟨_, _, _, _, _, _, hop⟩, -, hi, -⟩ <;>
    rw [hop, hi] <;> exact Nat.lt_succ_self _

/-- A caller's next line is a line of it. -/
theorem frameOk_next_of_calls {p : Params} {f : Frame} {i : Instr} (h : calls p f i = true) (s : State) :
    s.frameOk f.next = true := by
  rcases calls_inv h with
    ⟨⟨_, _, _, hop⟩, hl, -⟩ | ⟨⟨_, _, _, _, _, hop⟩ | ⟨_, _, _, _, _, _, hop⟩, hl, -⟩
  · rw [frameOk_accInit (f := f.next) hop, Frame.next_line]
    omega
  · rw [frameOk_accWrite (f := f.next) hop, Frame.next_line]
    omega
  · rw [frameOk_accRead (f := f.next) hop, Frame.next_line]
    omega

/-- An operation's first line is a line of it. -/
theorem frameOk_start {i : Instr} (hi : i.opcode ≠ none) (s : State) : s.frameOk (Frame.start i) = true := by
  cases i with
  | wireWriteMb a | wireReadMb a | wireWriteSb a | wireReadSb a => exact absurd rfl hi
  | _ => rfl

/-! The stack (R38) -/

/-- Frames on which operation `i` may stand: at most two, each calling the one above it. -/
def stackBelow (p : Params) : List Frame → Instr → Bool
  | [], _ => true
  | [f], i => calls p f i
  | [g, f], i => calls p g i && calls p f g.op
  | _, _ => false

theorem State.stackOk_cons (s : State) (f : Frame) : ∀ rest : List Frame,
    s.stackOk (f :: rest) = (s.frameOk f && stackBelow s.params rest f.op)
  | [] => by simp [State.stackOk, stackBelow]
  | [g] => rfl
  | [g, h] => by simp [State.stackOk, stackBelow, Bool.and_assoc]
  | _ :: _ :: _ :: _ => by simp [State.stackOk, stackBelow]

/-- A call keeps the stack within three frames: no chain of calls is longer (R160). -/
theorem stackBelow_call {p : Params} {f : Frame} {i : Instr} (hcall : calls p f i = true) :
    ∀ rest : List Frame, stackBelow p rest f.op = true → stackBelow p (f :: rest) i = true
  | [], _ => hcall
  | [g], h => by simp only [stackBelow, Bool.and_eq_true]; exact ⟨hcall, h⟩
  | [g, g'], h => by
    simp only [stackBelow, Bool.and_eq_true] at h
    have hi := calls_depth hcall
    have hf := calls_depth h.1
    have hg := calls_depth h.2
    have hbound := callDepth_le g'.op
    omega
  | _ :: _ :: _ :: _, h => nomatch h

/-- Below a called operation stands its caller, itself on a stack of the same kind. -/
theorem stackBelow_cons {p : Params} {g : Frame} {i : Instr} : ∀ {rest : List Frame},
    stackBelow p (g :: rest) i = true → calls p g i = true ∧ stackBelow p rest g.op = true
  | [], h => ⟨h, rfl⟩
  | [g'], h => by simpa only [stackBelow, Bool.and_eq_true] using h
  | _ :: _ :: _, h => nomatch h

theorem State.positionOk_iff (s : State) : s.positionOk = true ↔ s.chans.length = s.params.nCh
    ∧ (s.mode = .run ↔ s.pc ≠ []) ∧ s.stackOk s.pc = true ∧ (s.mode = .fault ∨ s.latches = []) := by
  have hmode : ((s.mode == .run) == !s.pc.isEmpty) = true ↔ (s.mode = .run ↔ s.pc ≠ []) := by
    cases s.mode <;> cases s.pc <;> simp
  simp only [State.positionOk, Bool.and_eq_true, hmode, Bool.or_eq_true, beq_iff_eq, List.isEmpty_iff, and_assoc]

/-- The sequencer runs with `f` on top of `rest`, and the position is one the operations make (R38, R39). -/
structure State.Stands (s : State) (f : Frame) (rest : List Frame) : Prop where
  running : s.running f rest
  channels : s.chans.length = s.params.nCh
  frame : s.frameOk f = true
  below : stackBelow s.params rest f.op = true
  latches : s.latches = []

theorem State.Stands.positionOk {s : State} {f : Frame} {rest : List Frame} (h : s.Stands f rest) :
    s.positionOk = true := by
  obtain ⟨⟨hmode, hpc⟩, hlen, hframe, hbelow, hlat⟩ := h
  refine s.positionOk_iff.mpr ⟨hlen, by simp [hmode, hpc], ?_, .inr hlat⟩
  rw [hpc, State.stackOk_cons, hframe, hbelow]
  rfl

theorem State.stands_of_positionOk {s : State} {f : Frame} {rest : List Frame} (h : s.positionOk = true)
    (hrun : s.running f rest) : s.Stands f rest := by
  obtain ⟨hlen, -, hstack, hlat⟩ := s.positionOk_iff.mp h
  rw [hrun.2, State.stackOk_cons, Bool.and_eq_true] at hstack
  exact ⟨hrun, hlen, hstack.1, hstack.2, hlat.resolve_left (by simp [hrun.1])⟩

/-- A sequencer that does not run has an empty stack. -/
theorem State.positionOk_of_stopped {s : State} (hlen : s.chans.length = s.params.nCh) (hmode : s.mode ≠ .run)
    (hpc : s.pc = []) (hlat : s.mode = .fault ∨ s.latches = []) : s.positionOk = true :=
  s.positionOk_iff.mpr ⟨hlen, by simp [hmode, hpc], by simp [hpc, State.stackOk], hlat⟩

/-! What the position reads of the channels: their control registers -/

theorem State.getElem?_controls (s : State) (c : Nat) :
    s.controls[c]? = s.chans[c]?.map (fun ch => (ch.ctrl1, ch.ctrl2)) := by
  simp [State.controls]

theorem State.controls_length (s : State) : s.controls.length = s.chans.length := by
  simp [State.controls]

/-- A field's register is one of the two control registers (R23, R26). -/
theorem Channel.readValue_field (ch : Channel) (fld : Field) :
    ch.readValue fld.reg = if fld = .ssoe then ch.ctrl2 else ch.ctrl1 := by
  cases fld <;> rfl

theorem State.frameOk_congr {s t : State} (hparams : t.params = s.params) (hcontrols : t.controls = s.controls)
    (f : Frame) : t.frameOk f = s.frameOk f := by
  have hplace : t.initPlaceOk f = s.initPlaceOk f := by
    have hc := congrArg (·[f.cfg.channel.toNat]?) hcontrols
    simp only [State.getElem?_controls] at hc
    unfold State.initPlaceOk
    split
    · rfl
    · split
      · rfl
      · congr 1
        revert hc
        cases s.chans[f.cfg.channel.toNat]? <;> cases t.chans[f.cfg.channel.toNat]? <;>
          simp +contextual [Channel.readValue_field]
  simp only [State.frameOk, hparams, hplace]

theorem State.positionOk_congr {s t : State} (hparams : t.params = s.params) (hcontrols : t.controls = s.controls)
    (hmode : t.mode = s.mode) (hpc : t.pc = s.pc) (hlat : t.latches = s.latches) : t.positionOk = s.positionOk := by
  have hlen : t.chans.length = s.chans.length := by rw [← State.controls_length, hcontrols, State.controls_length]
  have hstack : t.stackOk s.pc = s.stackOk s.pc := by
    unfold State.stackOk
    split <;> simp only [State.frameOk_congr hparams hcontrols, hparams]
  simp only [State.positionOk, hlen, hparams, hmode, hpc, hlat, hstack]

/-- A channel put back with its control registers as they were. -/
theorem State.controls_of_set {s t : State} {c : Nat} {ch ch' : Channel} (hch : s.chans[c]? = some ch)
    (hchans : t.chans = s.chans.set c ch') (h1 : ch'.ctrl1 = ch.ctrl1) (h2 : ch'.ctrl2 = ch.ctrl2) :
    t.controls = s.controls := by
  have hmap : s.controls[c]? = some (ch.ctrl1, ch.ctrl2) := by simp [State.getElem?_controls, hch]
  obtain ⟨hlt, hget⟩ := List.getElem?_eq_some_iff.mp hmap
  rw [State.controls, hchans, List.map_set, h1, h2, ← hget]
  exact List.set_getElem_self hlt

end Sys2Proof.Machine
end

section
/-! O54, the steps: every line of every operation keeps the position and stops at none of the model's own faults. -/

namespace Sys2Proof.Machine

/-- The answer is no fault of the model, and a next state has the property; a refusal has no next state. -/
def Lands (P : State → Prop) : Result → Prop
  | .next t => P t
  | .fault _ => False
  | .refused _ => True

theorem lands_iff (P : State → Prop) (r : Result) :
    Lands P r ↔ (∀ x, r ≠ .fault x) ∧ ∀ t, r = .next t → P t := by
  cases r <;> simp [Lands]

/-- A step keeps the position (R38, R39). -/
abbrev KeepsPosition (r : Result) : Prop := Lands (fun t => t.positionOk = true) r

theorem lands_regRead {P : State → Prop} {c : Nat} {r : Reg} {s : State} {k : Half → State → Result}
    (hc : c < s.chans.length)
    (hk : ∀ ch, s.chans[c]? = some ch → Lands P (k (ch.readValue r) (s.setChan c (ch.afterRead r)))) :
    Lands P (regRead c r s k) := by
  have hch : s.chans[c]? = some s.chans[c] := List.getElem?_eq_getElem hc
  rw [regRead_of_chan hch]
  exact hk _ hch

theorem lands_regWrite {P : State → Prop} {c : Nat} {r : Reg} {v : Half} {s : State} {k : State → Result}
    (hc : c < s.chans.length)
    (hk : ∀ ch ch', s.chans[c]? = some ch → ch.afterWrite r v = some ch' → Lands P (k (s.setChan c ch'))) :
    Lands P (regWrite c r v s k) := by
  have hch : s.chans[c]? = some s.chans[c] := List.getElem?_eq_getElem hc
  cases hw : s.chans[c].afterWrite r v with
  | none => simp [regWrite, hch, hw, Lands]
  | some ch' =>
    rw [regWrite_of_chan hch hw]
    exact hk _ _ hch hw

/-! The fields SPI_INIT programs (R100 to R108, R133) -/

/-- A value that fits its field: one bit, or the three of the baud rate (R23, R26). -/
def Field.fits (fld : Field) (v : Half) : Prop :=
  (∃ b, v = bitHalf b) ∨ (fld = .baud ∧ ∃ b : Byte, b.toNat < 8 ∧ v = b.toHalf)

theorem toHalf_of_lt_two : ∀ b : Byte, b.toNat < 2 → b.toHalf = bitHalf (b.getLsbD 0) := by
  decide

theorem Field.fits_bit (fld : Field) (b : Bool) : fld.fits (bitHalf b) := .inl ⟨b, rfl⟩

theorem Field.fits_one (fld : Field) : fld.fits 1#16 := fld.fits_bit true

theorem Field.fits_zero (fld : Field) : fld.fits 0#16 := fld.fits_bit false

theorem Field.fits_of_lt_two (fld : Field) {b : Byte} (hb : b.toNat < 2) : fld.fits b.toHalf :=
  .inl ⟨_, toHalf_of_lt_two b hb⟩

/-- A value that fits its field leaves every other bit of the register alone. -/
theorem Field.fits_mask {fld : Field} {v : Half} (h : fld.fits v) : (v <<< fld.lo) &&& ~~~fld.mask = 0#16 := by
  rcases h with ⟨b, rfl⟩ | ⟨rfl, b, hb, rfl⟩
  · cases fld <;> cases b <;> decide
  · revert b
    decide

theorem ssFields_fit {ss : Byte} {fields : List (Field × Half)} (h : ssFields ss = some fields) :
    fields ≠ [] ∧ ∀ p ∈ fields, p.1.fits p.2 := by
  by_cases h0 : ss = 0#8
  · rw [ssFields, if_pos h0] at h
    cases h
    simp [Field.fits_one]
  by_cases h1 : ss = 1#8
  · rw [ssFields, if_neg h0, if_pos h1] at h
    cases h
    simp [Field.fits_one]
  by_cases h2 : ss = 2#8
  · rw [ssFields, if_neg h0, if_neg h1, if_pos h2] at h
    cases h
    simp [Field.fits_zero]
  · rw [ssFields, if_neg h0, if_neg h1, if_neg h2] at h
    cases h

/-- A line of SPI_INIT programs at least one field, each with a value that fits it. -/
theorem initFields_fit {line : Nat} {cfg : CfgRecord} {fields : List (Field × Half)}
    (h : initFields line cfg = some fields) : fields ≠ [] ∧ ∀ p ∈ fields, p.1.fits p.2 := by
  unfold initFields at h
  split at h
  case h_1 =>
    obtain ⟨-, hf⟩ := Option.ite_none_right_eq_some.mp h
    cases hf
    simp [Field.fits_bit]
  case h_3 =>
    obtain ⟨hlt, hf⟩ := Option.ite_none_right_eq_some.mp h
    cases hf
    have hbaud : Field.baud.fits cfg.baud.toHalf := .inr ⟨rfl, cfg.baud, hlt, rfl⟩
    simp [hbaud]
  case h_4 => exact ssFields_fit h
  case h_8 =>
    cases h
    simp [Field.fits_one]
  all_goals
    obtain ⟨hlt, hf⟩ := Option.ite_none_right_eq_some.mp h
    cases hf
    simp [Field.fits_of_lt_two, hlt]

/-! The place within a line of SPI_INIT (R82, R133) -/

theorem initPlaceOk_of_sub_zero (s : State) {f : Frame} (hsub : f.sub = 0) : s.initPlaceOk f = true := by
  unfold State.initPlaceOk
  split
  · rfl
  · rename_i fields hfields
    have hne := List.length_pos_iff.mpr (initFields_fit hfields).1
    simp [hsub, List.getElem?_eq_getElem hne]

theorem initPlaceOk_of_even {s : State} {f : Frame} {fields : List (Field × Half)}
    (hfields : initFields f.line f.cfg = some fields) (hlt : f.sub / 2 < fields.length) (heven : f.sub % 2 = 0) :
    s.initPlaceOk f = true := by
  simp [State.initPlaceOk, hfields, List.getElem?_eq_getElem hlt, heven]

/-- Between the halves of a RegField the frame holds the register's word (R82). -/
theorem initPlaceOk_of_odd {s : State} {f : Frame} {fields : List (Field × Half)} {fld : Field} {v : Half}
    (hfields : initFields f.line f.cfg = some fields) (hk : fields[f.sub / 2]? = some (fld, v))
    (hodd : f.sub % 2 ≠ 0) {ch : Channel} (hch : s.chans[f.cfg.channel.toNat]? = some ch) :
    s.initPlaceOk f = true ↔ f.tmp = ch.readValue fld.reg := by
  simp only [State.initPlaceOk, hfields, hk, hch, Bool.or_eq_true, beq_iff_eq, hodd, false_or]
  exact eq_comm

theorem initPlaceOk_inBounds {s : State} {f : Frame} {fields : List (Field × Half)}
    (hfields : initFields f.line f.cfg = some fields) (h : s.initPlaceOk f = true) :
    f.sub / 2 < fields.length := by
  by_contra hge
  have hnone : fields[f.sub / 2]? = none := by simpa using hge
  simp [State.initPlaceOk, hfields, hnone] at h

/-- The place after a write half is one of SPI_INIT's: the next RegField, the next line, or the loop's end. -/
theorem frameOk_initAfter {s : State} {f : Frame} {count : Half} {table : Word} {fields : List (Field × Half)}
    (hop : f.op = .spiInit count table) (hlo : 5 ≤ f.line) (hhi : f.line ≤ 12)
    (hchan : f.cfg.channel.toNat < s.params.nCh) (hfields : initFields f.line f.cfg = some fields)
    (hodd : f.sub % 2 ≠ 0) : s.frameOk (initAfter count fields.length f) = true := by
  refine (frameOk_spiInit ((initAfter_op _ _ _).trans hop)).mpr ?_
  rw [initAfter_cfg]
  unfold initAfter
  split
  · rename_i hmore
    have hhalf : (f.sub + 1) / 2 < fields.length := by omega
    have heven : (f.sub + 1) % 2 = 0 := by omega
    have hlines : 1 ≤ f.line ∧ f.line ≤ 13 := by omega
    exact ⟨hlines, fun _ _ => hchan, fun _ _ => initPlaceOk_of_even hfields hhalf heven⟩
  · split
    · refine ⟨?_, fun _ _ => hchan, fun _ _ => initPlaceOk_of_sub_zero _ (Frame.loop_sub _ _ _ _)⟩
      unfold Frame.loop
      split <;> simp
    · exact ⟨by simp only [Frame.next_line]; omega, fun _ _ => hchan, fun _ _ => initPlaceOk_of_sub_zero s rfl⟩

/-- The end of a loop's body leads to its first line or to the line after it (R39). -/
theorem Frame.loop_line (f : Frame) (count : Half) (first after : Nat) :
    (f.loop count first after).line = first ∨ (f.loop count first after).line = after := by
  unfold Frame.loop
  split
  · exact .inl rfl
  · exact .inr rfl

/-- A raw address that is a register's belongs to one of the channels (R61, R63). -/
theorem locateFrom_lt {a : Word} {c : Nat} {r : Reg} : ∀ {n : Nat} {bases : List Word},
    locateFrom a n bases = some (c, r) → c < n + bases.length
  | n, b :: bs, h => by
    unfold locateFrom at h
    split at h
    · cases h
      simp
    · have hlt := locateFrom_lt h
      simp only [List.length_cons]
      omega

theorem locate_lt {p : Params} {a : Word} {c : Nat} {r : Reg} (h : locate p a = some (c, r)) : c < p.nCh := by
  have hlt := locateFrom_lt h
  rwa [Nat.zero_add] at hlt

/-! Lines -/

theorem positionOk_raise {s : State} (h : s.positionOk = true) (x : FaultCause) (info : Word) :
    (s.raise x info).positionOk = true :=
  State.positionOk_of_stopped (s.positionOk_iff.mp h).1 (by simp) rfl (.inl rfl)

section Standing

variable {s : State} {f : Frame} {rest : List Frame} (h : s.Stands f rest)

include h

/-- Going on within the operation keeps the position. -/
theorem State.Stands.keeps_top {t : State} {g : Frame} (hpc : t.pc = g :: s.pc.tail)
    (hop : g.op = f.op) (hframe : t.frameOk g = true)
    (hmode : t.mode = s.mode := by rfl) (hparams : t.params = s.params := by rfl)
    (hlen : t.chans.length = s.chans.length := by simp) (hlat : t.latches = s.latches := by rfl) :
    t.positionOk = true := by
  have hrest : t.pc = g :: rest := by rw [hpc, h.running.2]; rfl
  have hbelow : stackBelow t.params rest g.op = true := by rw [hparams, hop]; exact h.below
  exact State.Stands.positionOk
    ⟨⟨hmode.trans h.running.1, hrest⟩, by rw [hlen, hparams, h.channels], hframe, hbelow, hlat.trans h.latches⟩

theorem State.Stands.keeps_raise (x : FaultCause) (info : Word) : (s.raise x info).positionOk = true :=
  positionOk_raise h.positionOk x info

theorem State.Stands.keeps_call {i : Instr} (hcall : calls s.params f i = true) : (s.call i).positionOk = true :=
  State.Stands.positionOk (f := Frame.start i) (rest := f :: rest)
    ⟨⟨h.running.1, congrArg (Frame.start i :: ·) h.running.2⟩, h.channels, frameOk_start (calls_opcode hcall) _,
      stackBelow_call hcall rest h.below, h.latches⟩

theorem State.Stands.keeps_ret : s.ret.positionOk = true := by
  cases rest with
  | nil =>
    rw [s.ret_to_idle f h.running.2]
    exact State.positionOk_of_stopped h.channels (by simp) rfl (.inr h.latches)
  | cons g gs =>
    rw [s.ret_to_caller f g gs h.running.2]
    obtain ⟨hcall, hbelow⟩ := stackBelow_cons h.below
    exact State.Stands.positionOk (f := g.next) (rest := gs)
      ⟨⟨h.running.1, rfl⟩, h.channels, frameOk_next_of_calls hcall _, hbelow, h.latches⟩

theorem keeps_assertLine {cond : Bool} {x : FaultCause} {info : Word} (hnext : cond = true → s.frameOk f.next = true) :
    KeepsPosition (assertLine cond x info f s) := by
  unfold assertLine
  split
  · rename_i hc
    exact h.keeps_top rfl rfl (hnext hc)
  · exact h.keeps_raise x info

/-- A poll goes on, stays, or raises PeripheralTimeout (R131, R217). -/
theorem keeps_waitUntil {c : Nat} {fl : Flag} {v : Bool} (hc : c < s.params.nCh) (hnext : s.frameOk f.next = true) :
    KeepsPosition (waitUntil c fl v f s) := by
  have hlt : c < s.chans.length := h.channels ▸ hc
  have hch : s.chans[c]? = some s.chans[c] := List.getElem?_eq_getElem hlt
  refine (lands_iff _ _).mpr ⟨fun x hx => ?_, fun t ht => ?_⟩
  · unfold waitUntil at hx
    simp only [hch] at hx
    repeat' split at hx
    all_goals cases hx
  · obtain ⟨ch, hch', hcase⟩ := waitUntil_next ht
    have hplace : ∀ g, (s.setChan c ch.afterStatusRead).frameOk g = s.frameOk g :=
      State.frameOk_congr rfl
        (State.controls_of_set hch' rfl ch.afterStatusRead_ctrl1 ch.afterStatusRead_ctrl2)
    have hstay : s.pc = f :: s.pc.tail := by rw [h.running.2]; rfl
    rcases hcase with ⟨-, rfl⟩ | ⟨-, -, rfl⟩ | ⟨-, -, rfl⟩ | ⟨-, -, rfl⟩
    · exact h.keeps_top rfl rfl ((hplace _).trans hnext)
    · exact h.keeps_top hstay rfl ((hplace _).trans h.frame)
    · exact h.keeps_top hstay rfl ((hplace _).trans h.frame)
    · exact h.keeps_raise _ _

theorem keeps_loopHead {ch : Byte} (hc : ch.toNat < s.params.nCh)
    (hnext : s.frameOk { f.next with idx := 0#16 } = true) : KeepsPosition (loopHead ch f s) := by
  have hlt : ch.toNat < s.chans.length := h.channels ▸ hc
  unfold loopHead
  rw [List.getElem?_eq_getElem hlt]
  dsimp only
  split
  · trivial
  · exact h.keeps_top rfl rfl hnext

theorem keeps_headerLine {addr hdr : Byte} (hnext : s.frameOk f.next = true) :
    KeepsPosition (headerLine addr hdr f s) := by
  unfold headerLine
  split
  · exact h.keeps_top rfl rfl hnext
  · trivial

/-- Lines 5 to 12 of SPI_INIT: EnumRange, or a half of a RegField on a channel that is there (R82, R133, R214). -/
theorem keeps_initLine {count : Half} {table : Word} (hop : f.op = .spiInit count table) (hlo : 5 ≤ f.line)
    (hhi : f.line ≤ 12) : KeepsPosition (initLine count f s) := by
  obtain ⟨-, hchan, hplace⟩ := (frameOk_spiInit hop).mp h.frame
  have hch : f.cfg.channel.toNat < s.params.nCh := hchan (by omega) hhi
  have hlt : f.cfg.channel.toNat < s.chans.length := h.channels ▸ hch
  unfold initLine
  split
  · exact h.keeps_raise _ _
  · rename_i fields hfields
    have hbound := initPlaceOk_inBounds hfields (hplace hlo hhi)
    split
    · rename_i hnone
      exact absurd hbound (by simpa using hnone)
    · rename_i fld v hk
      split
      · rename_i heven
        refine lands_regRead hlt fun ch hget => ?_
        rw [Channel.afterRead_field, State.setChan_self hget]
        have hlines : 1 ≤ f.line ∧ f.line ≤ 13 := by omega
        have hhalf : fields[(f.sub + 1) / 2]? = some (fld, v) := by rwa [show (f.sub + 1) / 2 = f.sub / 2 by omega]
        have hodd : (f.sub + 1) % 2 ≠ 0 := by omega
        have hplace' := (initPlaceOk_of_odd (f := { f with sub := f.sub + 1, tmp := ch.readValue fld.reg }) hfields
          hhalf hodd hget).mpr rfl
        exact h.keeps_top rfl rfl ((frameOk_spiInit (by exact hop)).mpr ⟨hlines, fun _ _ => hch, fun _ _ => hplace'⟩)
      · rename_i hodd
        refine lands_regWrite hlt fun ch ch' hget hw => ?_
        exact h.keeps_top rfl (initAfter_op _ _ _) (frameOk_initAfter hop hlo hhi hch hfields hodd)

/-! Operations -/

theorem keeps_spiInit {count : Half} {table : Word} (hop : f.op = .spiInit count table) :
    KeepsPosition (execSpiInit count table s) := by
  obtain ⟨⟨hlo, hhi⟩, hchan, -⟩ := (frameOk_spiInit hop).mp h.frame
  rw [execSpiInit, operation_of_running h.running]
  split
  case h_1 =>
    refine h.keeps_top rfl rfl ((frameOk_spiInit (by exact hop)).mpr ?_)
    by_cases hcount : count = 0#16 <;> simp [hcount]
  case h_2 hl =>
    unfold initRecord
    split
    · trivial
    · split
      · trivial
      · exact h.keeps_top rfl rfl ((frameOk_spiInit (by exact hop)).mpr (by simp [hl]))
  case h_3 hl =>
    refine keeps_assertLine h fun hc => (frameOk_spiInit (by exact hop)).mpr ?_
    have hc : f.cfg.channel.toNat < s.params.nCh := by simpa [State.channelOk] using hc
    simp [hl, hc]
  case h_4 hl =>
    have hc : f.cfg.channel.toNat < s.params.nCh := hchan (by omega) (by omega)
    exact h.keeps_top rfl rfl ((frameOk_spiInit (by exact hop)).mpr
      ⟨by simp [hl], fun _ _ => hc, fun _ _ => initPlaceOk_of_sub_zero _ rfl⟩)
  case h_13 => exact h.keeps_ret
  case h_14 => exfalso; grind
  all_goals exact keeps_initLine h hop (by omega) (by omega)

theorem keeps_spiTransfer {ch : Byte} {count : Half} {buf : Word} (hop : f.op = .spiTransfer ch count buf) :
    KeepsPosition (execSpiTransfer ch count buf s) := by
  obtain ⟨⟨hlo, hhi⟩, hchan⟩ := (frameOk_spiTransfer hop).mp h.frame
  have hplace : ∀ (t : State) (g : Frame), t.params = s.params → g.op = f.op → 2 ≤ g.line → g.line ≤ 12 →
      ch.toNat < s.params.nCh → t.frameOk g = true := fun t g hp hg hlo hhi hc =>
    (frameOk_spiTransfer (hg.trans hop)).mpr ⟨⟨by omega, hhi⟩, .inr (hp ▸ hc)⟩
  have hc : 2 ≤ f.line → ch.toNat < s.params.nCh := fun h2 => hchan.resolve_left (by omega)
  have hlt : 2 ≤ f.line → ch.toNat < s.chans.length := fun h2 => h.channels ▸ hc h2
  rw [execSpiTransfer, operation_of_running h.running]
  split
  case h_1 hl =>
    exact keeps_assertLine h fun hc =>
      hplace s f.next rfl rfl (by simp [hl]) (by simp [hl]) (by simpa [State.channelOk] using hc)
  case h_2 hl | h_3 hl =>
    exact keeps_assertLine h fun _ => hplace s f.next rfl rfl (by simp [hl]) (by simp [hl]) (hc (by omega))
  case h_4 hl =>
    exact keeps_loopHead h (hc (by omega)) (hplace s _ rfl rfl (by simp [hl]) (by simp [hl]) (hc (by omega)))
  case h_5 hl | h_8 hl | h_9 hl =>
    exact keeps_waitUntil h (hc (by omega)) (hplace s f.next rfl rfl (by simp [hl]) (by simp [hl]) (hc (by omega)))
  case h_6 hl =>
    unfold fetchCell
    split
    · trivial
    · exact h.keeps_top rfl rfl (hplace _ _ rfl rfl (by simp [hl]) (by simp [hl]) (hc (by omega)))
  case h_7 hl =>
    refine lands_regWrite (hlt (by omega)) fun c c' _ _ => ?_
    have hline := f.loop_line count 5 8
    exact h.keeps_top rfl (Frame.loop_op _ _ _ _)
      (hplace _ _ rfl (Frame.loop_op _ _ _ _) (by omega) (by omega) (hc (by omega)))
  case h_10 hl | h_11 hl =>
    refine lands_regRead (hlt (by omega)) fun c _ => ?_
    exact h.keeps_top rfl rfl (hplace _ _ rfl rfl (by simp [hl]) (by simp [hl]) (hc (by omega)))
  case h_12 => exact h.keeps_ret
  case h_13 => exfalso; grind

theorem keeps_spiReceive {ch : Byte} {count : Half} {buf : Word} (hop : f.op = .spiReceive ch count buf) :
    KeepsPosition (execSpiReceive ch count buf s) := by
  obtain ⟨⟨hlo, hhi⟩, hchan⟩ := (frameOk_spiReceive hop).mp h.frame
  have hplace : ∀ (t : State) (g : Frame), t.params = s.params → g.op = f.op → 2 ≤ g.line → g.line ≤ 9 →
      ch.toNat < s.params.nCh → t.frameOk g = true := fun t g hp hg hlo hhi hc =>
    (frameOk_spiReceive (hg.trans hop)).mpr ⟨⟨by omega, hhi⟩, .inr (hp ▸ hc)⟩
  have hc : 2 ≤ f.line → ch.toNat < s.params.nCh := fun h2 => hchan.resolve_left (by omega)
  have hlt : 2 ≤ f.line → ch.toNat < s.chans.length := fun h2 => h.channels ▸ hc h2
  rw [execSpiReceive, operation_of_running h.running]
  split
  case h_1 hl =>
    exact keeps_assertLine h fun hc =>
      hplace s f.next rfl rfl (by simp [hl]) (by simp [hl]) (by simpa [State.channelOk] using hc)
  case h_2 hl | h_3 hl =>
    exact keeps_assertLine h fun _ => hplace s f.next rfl rfl (by simp [hl]) (by simp [hl]) (hc (by omega))
  case h_4 hl =>
    exact keeps_loopHead h (hc (by omega)) (hplace s _ rfl rfl (by simp [hl]) (by simp [hl]) (hc (by omega)))
  case h_5 hl =>
    refine lands_regWrite (hlt (by omega)) fun c c' _ _ => ?_
    exact h.keeps_top rfl rfl (hplace _ _ rfl rfl (by simp [hl]) (by simp [hl]) (hc (by omega)))
  case h_6 hl =>
    exact keeps_waitUntil h (hc (by omega)) (hplace s f.next rfl rfl (by simp [hl]) (by simp [hl]) (hc (by omega)))
  case h_7 hl =>
    refine lands_regRead (hlt (by omega)) fun c _ => ?_
    exact h.keeps_top rfl rfl (hplace _ _ rfl rfl (by simp [hl]) (by simp [hl]) (hc (by omega)))
  case h_8 hl =>
    have hline := f.loop_line count 5 9
    unfold storeCell
    split
    · trivial
    · rename_i u hu
      rcases bufWrite_some hu with ⟨-, -, rfl⟩ | ⟨-, -, rfl⟩ <;>
        exact h.keeps_top rfl (Frame.loop_op _ _ _ _)
          (hplace _ _ rfl (Frame.loop_op _ _ _ _) (by omega) (by omega) (hc (by omega)))
  case h_9 => exact h.keeps_ret
  case h_10 => exfalso; grind

theorem keeps_spiRegWrite {a v : Word} (hop : f.op = .spiRegWrite a v) : KeepsPosition (execSpiRegWrite a v s) := by
  obtain ⟨hlo, hhi⟩ := (frameOk_spiRegWrite hop).mp h.frame
  rw [execSpiRegWrite, operation_of_running h.running]
  split
  case h_1 hl =>
    have hnext (t : State) : t.frameOk f.next = true := (frameOk_spiRegWrite (by exact hop)).mpr (by simp [hl])
    unfold memWrite
    split
    · split
      · rename_i c r hloc
        exact lands_regWrite (h.channels ▸ locate_lt hloc) fun ch ch' _ _ => h.keeps_top rfl rfl (hnext _)
      · split
        · exact h.keeps_top (g := f.next) rfl rfl (hnext _)
        · trivial
    · trivial
  case h_2 => exact h.keeps_ret
  case h_3 => exfalso; grind

theorem keeps_spiRegRead {a : Word} (hop : f.op = .spiRegRead a) : KeepsPosition (execSpiRegRead a s) := by
  obtain ⟨hlo, hhi⟩ := (frameOk_spiRegRead hop).mp h.frame
  rw [execSpiRegRead, operation_of_running h.running]
  split
  case h_1 hl =>
    have hnext (t : State) : t.frameOk f.next = true := (frameOk_spiRegRead (by exact hop)).mpr (by simp [hl])
    unfold memRead
    split
    · split
      · rename_i c r hloc
        exact lands_regRead (h.channels ▸ locate_lt hloc) fun ch _ => h.keeps_top rfl rfl (hnext _)
      · split
        · exact h.keeps_top (g := f.next) rfl rfl (hnext _)
        · trivial
    · trivial
  case h_2 => exact h.keeps_ret
  case h_3 => exfalso; grind

theorem keeps_accInit {ch port pin : Byte} (hop : f.op = .accInit ch port pin) :
    KeepsPosition (execAccInit ch port pin s) := by
  obtain ⟨hlo, hhi⟩ := (frameOk_accInit hop).mp h.frame
  rw [execAccInit, operation_of_running h.running]
  split
  case h_1 hl | h_2 hl | h_3 hl => exact h.keeps_call (by simp [calls, hop, hl]; decide)
  case h_4 hl => exact h.keeps_top (g := f.next) rfl rfl ((frameOk_accInit (by exact hop)).mpr (by simp [hl]))
  case h_5 => exact h.keeps_ret
  case h_6 => exfalso; grind

theorem keeps_accWrite {ch port pin addr value : Byte} (hop : f.op = .accWrite ch port pin addr value) :
    KeepsPosition (execAccWrite ch port pin addr value s) := by
  obtain ⟨hlo, hhi⟩ := (frameOk_accWrite hop).mp h.frame
  rw [execAccWrite, operation_of_running h.running]
  split
  case h_1 hl => exact keeps_headerLine h ((frameOk_accWrite (by exact hop)).mpr (by simp [hl]))
  case h_2 hl => exact h.keeps_top (g := f.next) rfl rfl ((frameOk_accWrite (by exact hop)).mpr (by simp [hl]))
  case h_3 hl | h_4 hl | h_5 hl => exact h.keeps_call (by simp [calls, hop, hl])
  case h_6 => exact h.keeps_ret
  case h_7 => exfalso; grind

theorem keeps_accRead {ch port pin addr : Byte} {count : Half} {buf : Word}
    (hop : f.op = .accRead ch port pin addr count buf) : KeepsPosition (execAccRead ch port pin addr count buf s) := by
  obtain ⟨hlo, hhi⟩ := (frameOk_accRead hop).mp h.frame
  rw [execAccRead, operation_of_running h.running]
  split
  case h_1 hl => exact keeps_headerLine h ((frameOk_accRead (by exact hop)).mpr (by simp [hl]))
  case h_2 hl | h_3 hl | h_4 hl | h_5 hl => exact h.keeps_call (by simp [calls, hop, hl])
  case h_6 => exact h.keeps_ret
  case h_7 => exfalso; grind

theorem keeps_chipSelect {level : Bool} {port pin : Byte}
    (hop : f.op = if level then .csDeassert port pin else .csAssert port pin) :
    KeepsPosition (chipSelect level port pin f s) := by
  obtain ⟨hlo, hhi⟩ := (frameOk_chipSelect hop).mp h.frame
  unfold chipSelect
  split
  case h_1 hl | h_2 hl =>
    exact keeps_assertLine h fun _ => (frameOk_chipSelect (by exact hop)).mpr (by simp [hl])
  case h_3 hl => exact h.keeps_top (g := f.next) rfl rfl ((frameOk_chipSelect (by exact hop)).mpr (by simp [hl]))
  case h_4 => exact h.keeps_ret
  case h_5 => exfalso; grind

/-- Every step of the operation on top keeps the position (R38, R39). -/
theorem State.Stands.keeps_exec : KeepsPosition (exec f.op s) := by
  cases hop : f.op with
  | spiInit count table => exact keeps_spiInit h hop
  | spiTransfer ch count buf => exact keeps_spiTransfer h hop
  | spiReceive ch count buf => exact keeps_spiReceive h hop
  | spiRegWrite a v => exact keeps_spiRegWrite h hop
  | spiRegRead a => exact keeps_spiRegRead h hop
  | accInit ch port pin => exact keeps_accInit h hop
  | accWrite ch port pin addr value => exact keeps_accWrite h hop
  | accRead ch port pin addr count buf => exact keeps_accRead h hop
  | csAssert port pin =>
    have hline : exec (.csAssert port pin) s = chipSelect false port pin f s := operation_of_running h.running
    exact hline ▸ keeps_chipSelect (level := false) h hop
  | csDeassert port pin =>
    have hline : exec (.csDeassert port pin) s = chipSelect true port pin f s := operation_of_running h.running
    exact hline ▸ keeps_chipSelect (level := true) h hop
  | wireWriteMb a | wireReadMb a | wireWriteSb a | wireReadSb a =>
    have hframe := h.frame
    simp [State.frameOk, hop] at hframe

end Standing

/-! Agents -/

/-- In IDLE an accepted command stands alone on the stack (R39, R90). -/
theorem positionOk_accept {s : State} (h : s.positionOk = true) (hidle : s.mode = .idle) {i : Instr}
    (hi : i.opcode ≠ none) : (s.accept i).positionOk = true := by
  obtain ⟨hlen, hrun, -, hlat⟩ := s.positionOk_iff.mp h
  have hpc : s.pc = [] := by simpa [hidle] using hrun
  exact State.Stands.positionOk (f := Frame.start i) (rest := [])
    ⟨⟨rfl, congrArg (Frame.start i :: ·) hpc⟩, hlen, frameOk_start hi _, rfl, hlat.resolve_left (by simp [hidle])⟩

theorem positionOk_hostReset (s : State) : s.hostReset.positionOk = true :=
  State.positionOk_of_stopped (by simp) (by simp) rfl (.inr rfl)

theorem keeps_hostStep {s : State} (h : s.positionOk = true) : KeepsPosition (hostStep s) := by
  unfold hostStep
  split
  · exact h
  · rename_i a rest hinbox
    split
    · rename_i hallow
      have hrest : { s with inbox := rest }.positionOk = true := h
      cases a with
      | command d =>
        have hidle : { s with inbox := rest }.mode = .idle := by simpa [State.actAllowed] using hallow
        rcases issue_of_idle d hidle with ⟨i, hd, -, hi⟩ | ⟨info, hi⟩
        · rw [hostAct, hi]
          exact positionOk_accept hrest hidle (onlyCommand_decode d i hd)
        · rw [hostAct, hi]
          exact positionOk_raise hrest _ info
      | reset => exact positionOk_hostReset _
      | buffer ref cells => exact h
      | table ref records => exact h
    · exact h

theorem keeps_seqStep {s : State} (h : s.positionOk = true) : KeepsPosition (seqStep s) := by
  unfold seqStep
  split
  · exact h
  · exact h
  · rename_i hrun
    split
    · rename_i hpc
      exact absurd hpc ((s.positionOk_iff.mp h).2.1.mp hrun)
    · rename_i f rest hpc
      exact (State.stands_of_positionOk h ⟨hrun, hpc⟩).keeps_exec

/-- A link agent writes no control register and does not move the sequencer (R82). -/
theorem keeps_linkStep {s : State} {c : Nat} (h : s.positionOk = true) : KeepsPosition (linkStep c s) := by
  have hkeep : ∀ {t : State} {ch ch' : Channel}, s.chans[c]? = some ch → t.chans = s.chans.set c ch' →
      ch'.ctrl1 = ch.ctrl1 → ch'.ctrl2 = ch.ctrl2 → t.params = s.params → t.mode = s.mode → t.pc = s.pc →
      t.latches = s.latches → t.positionOk = true := fun hch hchans h1 h2 hp hm hpc hl =>
    (State.positionOk_congr hp (State.controls_of_set hch hchans h1 h2) hm hpc hl).trans h
  unfold linkStep
  split
  · exact h
  · rename_i ch hch
    split
    · exact hkeep hch rfl rfl rfl rfl rfl rfl rfl
    · split
      · rename_i hen
        split
        · rename_i hdue
          have hwide : ch.wide = false := by simpa using (Bool.and_eq_true_iff.mp hdue).2
          obtain ⟨b, -, hb⟩ := exec_decodeHeader ch.shift.lowByte { s with lnk := c }
          rw [hb, headerFrame_of_frame (s := { s with lnk := c }) b hch hen hwide]
          exact hkeep hch rfl rfl rfl rfl rfl rfl rfl
        · exact hkeep hch rfl rfl rfl rfl rfl rfl rfl
      · split
        · exact h
        · exact hkeep hch rfl rfl rfl rfl rfl rfl rfl

/-- Settles O54, agent by agent: an act of HOST, a line of SEQ's, a step of a link agent. -/
theorem positionKept : Obligations.PositionKept := by
  intro s hs
  refine (lands_iff _ _).mp ?_
  have hspent : s.spendTurn.positionOk = true := hs
  unfold step
  split
  · exact hspent
  · rename_i a _
    cases a with
    | host => exact keeps_hostStep hspent
    | seq => exact keeps_seqStep hspent
    | link c => exact keeps_linkStep hspent

end Sys2Proof.Machine
end

section
/-! O25, O60: which step changes what, read off the effect of a step item by item. -/

namespace Sys2Proof.Machine

/-! The control bits the configuration does not cover (R25) -/

theorem sameUncovered_of_controls {ch ch' : Channel} (h1 : ch'.ctrl1 = ch.ctrl1) (h2 : ch'.ctrl2 = ch.ctrl2) :
    sameUncovered ch ch' :=
  ⟨by rw [h1], by rw [h2]⟩

theorem Channel.Accessed.uncovered {ch ch' : Channel} (h : ch.Accessed ch') : sameUncovered ch ch' :=
  sameUncovered_of_controls h.ctrl1 h.ctrl2

/-- What RegField writes keeps the bits outside the field (R9). -/
theorem Field.insert_keeps {fld : Field} {v keep : Half} (old : Half) (hfit : fld.fits v)
    (hkeep : keep &&& fld.mask = 0#16) : fld.insert old v &&& keep = old &&& keep := by
  have hv := Field.fits_mask hfit
  rw [Field.insert]
  apply BitVec.eq_of_getLsbD_eq
  intro i hi
  have hvi := congrArg (·.getLsbD i) hv
  have hki := congrArg (·.getLsbD i) hkeep
  simp only [BitVec.getLsbD_and, BitVec.getLsbD_or, BitVec.getLsbD_not, BitVec.getLsbD_zero] at hvi hki ⊢
  grind

/-- The write half of a RegField covers its field alone, in the register the read half read (R25, R82). -/
theorem sameUncovered_fieldWrite {ch ch' : Channel} {fld : Field} {v old : Half} (hfit : fld.fits v)
    (hold : old = ch.readValue fld.reg) (hw : ch.afterWrite fld.reg (fld.insert old v) = some ch') :
    sameUncovered ch ch' := by
  subst hold
  cases (Channel.afterWrite_field ch fld _).symm.trans hw
  rw [Channel.readValue_field]
  by_cases hssoe : fld = .ssoe
  · subst hssoe
    exact ⟨rfl, Field.insert_keeps _ hfit (by decide)⟩
  · rw [if_neg hssoe, if_neg hssoe]
    refine ⟨Field.insert_keeps _ hfit ?_, rfl⟩
    revert hssoe
    cases fld <;> decide

/-- A list with one entry replaced: every entry is related to the one it had, if the replaced one is. -/
theorem forall_getElem?_set {α : Type} {R : Nat → α → α → Prop} {l : List α} {c : Nat} {x x' : α}
    (hx : l[c]? = some x) (hc : R c x x') (hother : ∀ n y, n ≠ c → R n y y) :
    ∀ n y, l[n]? = some y → ∃ y', (l.set c x')[n]? = some y' ∧ R n y y' := by
  intro n y hy
  by_cases hn : n = c
  · subst hn
    cases hx.symm.trans hy
    obtain ⟨hlt, -⟩ := List.getElem?_eq_some_iff.mp hx
    exact ⟨x', by simp [hlt], hc⟩
  · exact ⟨y, by rw [List.getElem?_set_ne (Ne.symm hn), hy], hother n y hn⟩

/-- Every channel of `t` agrees with that of `s` in the control bits the configuration does not cover. -/
def State.UncoveredKept (s t : State) : Prop :=
  ∀ (c : Nat) (ch : Channel), s.chans[c]? = some ch → ∃ ch', t.chans[c]? = some ch' ∧ sameUncovered ch ch'

theorem State.uncoveredKept_of_chans {s t : State} (h : t.chans = s.chans) : s.UncoveredKept t :=
  fun _ ch hch => ⟨ch, by rw [h, hch], sameUncovered_of_controls rfl rfl⟩

theorem State.uncoveredKept_of_set {s t : State} {c : Nat} {ch ch' : Channel} (hch : s.chans[c]? = some ch)
    (hchans : t.chans = s.chans.set c ch') (h : sameUncovered ch ch') : s.UncoveredKept t := by
  unfold State.UncoveredKept
  rw [hchans]
  exact forall_getElem?_set (R := fun _ => sameUncovered) hch h (fun _ _ _ => sameUncovered_of_controls rfl rfl)

theorem LineEffect.uncovered_or_rawWrite {s t : State} {f : Frame} (h : LineEffect s f t)
    (hframe : s.frameOk f = true) : s.UncoveredKept t ∨ ∃ a v, f.op = .spiRegWrite a v := by
  cases h with
  | access hch hacc g hop => exact .inl (State.uncoveredKept_of_set hch rfl hacc.uncovered)
  | poll hch g hop n => exact .inl (State.uncoveredKept_of_set hch rfl Channel.Accessed.statusRead.uncovered)
  | rawRegisterRead hf hch =>
    exact .inl (State.uncoveredKept_of_set hch rfl (Channel.accessed_afterRead _ _).uncovered)
  | fieldWrite hf hlo hhi hfields hk hodd hch hw =>
    have hplace := ((frameOk_spiInit hf).mp hframe).2.2 hlo hhi
    have htmp := (initPlaceOk_of_odd hfields hk hodd hch).mp hplace
    have hfit := (initFields_fit hfields).2 _ (List.mem_of_getElem? hk)
    exact .inl (State.uncoveredKept_of_set hch rfl (sameUncovered_fieldWrite hfit htmp hw))
  | rawRegisterWrite hf hch hw => exact .inr ⟨_, _, hf.1⟩
  | header tx hf hch => exact absurd hframe (by simp [hf])
  | store hf hw =>
    rcases bufWrite_some hw with ⟨-, -, rfl⟩ | ⟨-, -, rfl⟩ <;> exact .inl (State.uncoveredKept_of_chans rfl)
  | ret => exact .inl (State.uncoveredKept_of_chans s.ret_chans)
  | _ => exact .inl (State.uncoveredKept_of_chans rfl)

/-- Settles O25: SPI_INIT writes its fields alone, the link agents and every other access no control register. -/
theorem uncoveredBitsChangeOnlyByRawWriteOrReset : Obligations.UncoveredBitsChangeOnlyByRawWriteOrReset := by
  intro s t hs hstep
  cases stepEffect_of_step hstep with
  | line hseq hrun h =>
    rcases h.uncovered_or_rawWrite (State.stands_of_positionOk hs hrun).frame with hkept | ⟨a, v, hop⟩
    · exact .inl hkept
    · exact .inr (.inr ⟨_, a, v, hseq, hop⟩)
  | reset hact => exact .inr (.inl hact)
  | linkStart hturn hch => exact .inl (State.uncoveredKept_of_set hch rfl ⟨rfl, rfl⟩)
  | linkComplete hturn hch => exact .inl (State.uncoveredKept_of_set hch rfl ⟨rfl, rfl⟩)
  | linkOther hturn hch => exact .inl (State.uncoveredKept_of_set hch rfl ⟨rfl, rfl⟩)
  | _ => exact .inl (State.uncoveredKept_of_chans rfl)

/-! What a line changes (R36, R40 to R42, R45, R64) -/

section Line

variable {s t : State} {f : Frame} (h : LineEffect s f t)

include h

theorem LineEffect.params : t.params = s.params := by
  cases h with
  | store hf hw => rcases bufWrite_some hw with ⟨-, -, rfl⟩ | ⟨-, -, rfl⟩ <;> rfl
  | ret => exact s.ret_params
  | _ => rfl

theorem LineEffect.pins_changed (hne : t.pins ≠ s.pins) :
    f.line = 3 ∧ ∃ port pin, f.op = .csAssert port pin ∨ f.op = .csDeassert port pin := by
  cases h with
  | @pin port pin level hf =>
    obtain ⟨hop, hline⟩ := hf
    cases level with
    | false => exact ⟨hline, port, pin, .inl hop⟩
    | true => exact ⟨hline, port, pin, .inr hop⟩
  | store hf hw => rcases bufWrite_some hw with ⟨-, -, rfl⟩ | ⟨-, -, rfl⟩ <;> exact absurd rfl hne
  | ret => exact absurd s.ret_pins hne
  | _ => exact absurd rfl hne

theorem LineEffect.inits_changed (hne : t.inits ≠ s.inits) :
    ∃ ch port pin, f.atLine (.accInit ch port pin) 4 ∧ t.accState ⟨ch, port, pin⟩ = .init := by
  cases h with
  | @session ch port pin hf => exact ⟨ch, port, pin, hf, (State.accState_setInit s _ _).trans (if_pos rfl)⟩
  | store hf hw => rcases bufWrite_some hw with ⟨-, -, rfl⟩ | ⟨-, -, rfl⟩ <;> exact absurd rfl hne
  | ret => exact absurd s.ret_inits hne
  | _ => exact absurd rfl hne

theorem LineEffect.result_changed (hne : t.result ≠ s.result) : ∃ a, f.atLine (.spiRegRead a) 1 := by
  cases h with
  | rawRegisterRead hf hch => exact ⟨_, hf⟩
  | rawMemoryRead hf => exact ⟨_, hf⟩
  | store hf hw => rcases bufWrite_some hw with ⟨-, -, rfl⟩ | ⟨-, -, rfl⟩ <;> exact absurd rfl hne
  | ret => exact absurd s.ret_result hne
  | _ => exact absurd rfl hne

theorem LineEffect.hdr_changed (hne : t.hdr ≠ s.hdr) :
    (∃ ch port pin addr value, f.op = .accWrite ch port pin addr value)
      ∨ (∃ ch port pin addr count buf, f.atLine (.accRead ch port pin addr count buf) 1)
      ∨ ∃ ch count, f.atLine (.spiReceive ch count s.params.hdrRef) 8 := by
  cases h with
  | hdrWrite i v hf => exact hf.imp_right .inl
  | store hf hw =>
    rcases bufWrite_some hw with ⟨rfl, -, rfl⟩ | ⟨-, -, rfl⟩
    · exact .inr (.inr ⟨_, _, hf⟩)
    · exact absurd rfl hne
  | ret => exact absurd s.ret_hdr hne
  | _ => exact absurd rfl hne

theorem LineEffect.mem_changed (hne : t.mem ≠ s.mem) :
    (∃ ch count buf, f.atLine (.spiReceive ch count buf) 8) ∨ ∃ a v, f.atLine (.spiRegWrite a v) 1 := by
  cases h with
  | store hf hw => exact .inl ⟨_, _, _, hf⟩
  | rawMemoryWrite hf => exact .inr ⟨_, _, hf⟩
  | ret => exact absurd s.ret_mem hne
  | _ => exact absurd rfl hne

/-- Line 3 of a chip-select operation appends its event; a wire form on the stack is no position the operations make. -/
theorem LineEffect.trace_changed : t.trace = s.trace
    ∨ (∃ port pin level, f.atLine (if level then .csDeassert port pin else .csAssert port pin) 3
        ∧ t.trace = s.trace ++ [.cs port pin level])
    ∨ (s.frameOk f = false ∧ ∃ e, t.trace = s.trace ++ [e]) := by
  cases h with
  | pin hf => exact .inr (.inl ⟨_, _, _, hf, rfl⟩)
  | header tx hf hch => exact .inr (.inr ⟨hf, _, rfl⟩)
  | store hf hw => rcases bufWrite_some hw with ⟨-, -, rfl⟩ | ⟨-, -, rfl⟩ <;> exact .inl rfl
  | ret => exact .inl s.ret_trace
  | _ => exact .inl rfl

end Line

/-! What any other step changes -/

/-- A link agent of `s` moves and completes a frame on its channel (R193, R206). -/
def State.LinkFrame (s t : State) : Prop :=
  ∃ c ch tx rx, s.nextTurn = some (.link c) ∧ s.chans[c]? = some ch
    ∧ (ch.completeEnabled = true ∨ (ch.linkOpen = true ∧ s.params.linkOther = .supplied))
    ∧ t.trace = s.trace ++ [.frame c tx rx]

/-- HOST gives a buffer or a table. -/
def State.hostGives (s : State) : Prop :=
  (∃ ref cells, s.hostActs (.buffer ref cells)) ∨ ∃ ref records, s.hostActs (.table ref records)

/-- The pins, the sessions, RESULT and HDR stay, the memories too but for what HOST gives, and the TRACE but for a link's
frame. -/
structure State.OthersKeep (s t : State) : Prop where
  pins : t.pins = s.pins
  inits : t.inits = s.inits
  result : t.result = s.result
  hdr : t.hdr = s.hdr
  mem : t.mem = s.mem ∨ s.hostGives
  trace : t.trace = s.trace ∨ s.LinkFrame t

theorem linkOtherEffect_some {s : State} {c : Nat} {ch : Channel} {e : LinkEffect}
    (h : s.linkOtherEffect c ch = some e) : ch.linkOpen = true ∧ s.params.linkOther = .supplied := by
  unfold State.linkOtherEffect at h
  split at h
  · cases h
  · rename_i hsup
    split at h
    · exact ⟨‹_›, hsup⟩
    · cases h

theorem StepEffect.params {s t : State} (h : StepEffect s t) : t.params = s.params := by
  cases h with
  | line hseq hrun h => exact h.params
  | _ => rfl

theorem StepEffect.reset_or_line_or_othersKeep {s t : State} (h : StepEffect s t) :
    (s.hostActs .reset ∧ t.mem = s.mem)
      ∨ (∃ f rest, s.seqOn f ∧ s.running f rest ∧ LineEffect s.spendTurn f t) ∨ s.OthersKeep t := by
  cases h with
  | reset hact => exact .inl ⟨hact, rfl⟩
  | line hseq hrun h => exact .inr (.inl ⟨_, _, hseq, hrun, h⟩)
  | buffer hact => exact .inr (.inr ⟨rfl, rfl, rfl, rfl, .inr (.inl ⟨_, _, hact⟩), .inl rfl⟩)
  | table hact => exact .inr (.inr ⟨rfl, rfl, rfl, rfl, .inr (.inr ⟨_, _, hact⟩), .inl rfl⟩)
  | linkComplete hturn hch hen tx =>
    exact .inr (.inr ⟨rfl, rfl, rfl, rfl, .inl rfl, .inr ⟨_, _, _, _, hturn, hch, .inl hen, rfl⟩⟩)
  | @linkOther c ch e hturn hch he =>
    have htrace : (s.spendTurn.linkOtherStep c ch e).trace = s.trace
        ∨ s.LinkFrame (s.spendTurn.linkOtherStep c ch e) := by
      cases hframe : e.frame with
      | none => exact .inl (by simp [State.linkOtherStep, hframe])
      | some p =>
        exact .inr ⟨c, ch, p.1, p.2, hturn, hch, .inr (linkOtherEffect_some (s := s.spendTurn) he),
          by simp [State.linkOtherStep, hframe]⟩
    exact .inr (.inr ⟨rfl, rfl, rfl, rfl, .inl rfl, htrace⟩)
  | _ => exact .inr (.inr ⟨rfl, rfl, rfl, rfl, .inl rfl, .inl rfl⟩)

/-- Settles O60: SEQ's lines item by item, and every other step. -/
theorem whatChangesByWhichStep : Obligations.WhatChangesByWhichStep := by
  intro s t hstep
  have heffect := stepEffect_of_step hstep
  refine ⟨heffect.params, ?_⟩
  rcases heffect.reset_or_line_or_othersKeep with
    hreset | ⟨f, rest, hseq, hrun, h⟩ | ⟨hpins, hinits, hresult, hhdr, hmem, htrace⟩
  · exact .inl hreset
  · refine .inr ⟨fun hne => ?_, fun hne => ?_, fun hne => ?_, fun hne => ⟨f, hseq, h.hdr_changed hne⟩,
      fun hne => .inr (.inr ⟨f, hseq, h.mem_changed hne⟩), ?_, fun hpos hne => ?_⟩
    · obtain ⟨hline, port, pin, hop⟩ := h.pins_changed hne
      exact ⟨f, port, pin, hseq, hline, hop⟩
    · obtain ⟨ch, port, pin, hat, hinit⟩ := h.inits_changed hne
      exact ⟨f, ch, port, pin, hseq, hat, hinit⟩
    · obtain ⟨a, hat⟩ := h.result_changed hne
      exact ⟨f, a, hseq, hat⟩
    · rcases h.trace_changed with htrace | ⟨port, pin, level, -, htrace⟩ | ⟨-, e, htrace⟩
      · exact .inl htrace
      · exact .inr ⟨_, htrace⟩
      · exact .inr ⟨e, htrace⟩
    · rcases h.trace_changed with htrace | ⟨port, pin, level, hat, htrace⟩ | ⟨hbad, -⟩
      · exact absurd htrace hne
      · exact .inl ⟨f, port, pin, level, hseq, hat, htrace⟩
      · exact nomatch hbad.symm.trans (State.stands_of_positionOk hpos hrun).frame
  · refine .inr ⟨fun hne => absurd hpins hne, fun hne => absurd hinits hne, fun hne => absurd hresult hne,
      fun hne => absurd hhdr hne, fun hne => ?_, ?_, fun _ hne => .inr (htrace.resolve_left hne)⟩
    · rcases hmem.resolve_left hne with hbuffer | htable
      · exact .inl hbuffer
      · exact .inr (.inl htable)
    · rcases htrace with htrace | ⟨c, ch, tx, rx, -, -, -, htrace⟩
      · exact .inl htrace
      · exact .inr ⟨_, htrace⟩

end Sys2Proof.Machine
end

section
/-! O7, O10, O12: the command port and HOST's reset. -/

namespace Sys2Proof.Machine

/-! The descriptors R114 does not call illegal -/

/-- A mask that covers bits `lo` to `lo + n - 1` and gives 0 shows that these bits are 0. -/
theorem extractLsb'_eq_zero_of_and {w m : Word} {lo n : Nat} (hm : ∀ i < n, m.getLsbD (lo + i) = true)
    (h : w &&& m = 0#32) : w.extractLsb' lo n = 0#n := by
  apply BitVec.eq_of_getLsbD_eq
  intro i hi
  have hbit := congrArg (·.getLsbD (lo + i)) h
  simpa [hm i hi, hi] using hbit

theorem toNat_and_lowByte (w : Word) : (w &&& 0xFF#32).toNat = (byte0 w).toNat := by
  rw [BitVec.toNat_and, byte0, BitVec.extractLsb'_toNat, Nat.shiftRight_zero]
  exact Nat.and_two_pow_sub_one_eq_mod _ 8

theorem byte1_of_mask {w : Word} (h : w &&& 0x0000FF00#32 = 0#32) : byte1 w = 0#8 :=
  extractLsb'_eq_zero_of_and (by decide) h

theorem upper24_of_mask {w : Word} (h : w &&& 0xFFFFFF00#32 = 0#32) : upper24 w = 0#24 :=
  extractLsb'_eq_zero_of_and (by decide) h

/-- What R114 leaves of the opcodes, and of the reserved fields of their formats. -/
theorem legal_fields {d : Descriptor} (h : illegalDescriptor d = false) :
    (byte0 d.word0).toNat ∈ [0x01, 0x02, 0x03, 0x04, 0x05, 0x10, 0x12]
      ∧ ((byte0 d.word0).toNat = 0x01 → d.word0 &&& 0x0000FF00#32 = 0#32)
      ∧ ((byte0 d.word0).toNat = 0x04 ∨ (byte0 d.word0).toNat = 0x05 → d.word0 &&& 0xFFFFFF00#32 = 0#32)
      ∧ ((byte0 d.word0).toNat = 0x12 → d.word1 &&& 0x0000FF00#32 = 0#32) := by
  simp only [illegalDescriptor, toNat_and_lowByte] at h
  generalize (byte0 d.word0).toNat = n at h ⊢
  simp only [Bool.or_eq_false_iff, Bool.not_eq_false', List.contains_eq_mem, decide_eq_true_eq,
    decide_eq_false_iff_not, Bool.and_eq_false_imp, Bool.or_eq_true, beq_iff_eq, bne_eq_false_iff_eq] at h
  obtain ⟨⟨⟨⟨hmap, hinternal⟩, hinit⟩, hraw⟩, hread⟩ := h
  refine ⟨?_, hinit, hraw, hread⟩
  simp only [List.mem_cons, List.not_mem_nil, or_false] at hmap hinternal ⊢
  omega

/-- A legal descriptor decodes to a command HOST may issue (R92, R114). -/
theorem decode_of_legal {d : Descriptor} (h : illegalDescriptor d = false) :
    ∃ i, decode d = .ok i ∧ i.issuable = true := by
  obtain ⟨hopc, hinit, hraw, hread⟩ := legal_fields h
  have hbyte : ∀ b : Byte, (byte0 d.word0).toNat = b.toNat → byte0 d.word0 = b := fun _ => BitVec.eq_of_toNat_eq
  simp only [List.mem_cons, List.not_mem_nil, or_false] at hopc
  rcases hopc with ho | ho | ho | ho | ho | ho | ho
  · exact ⟨.spiInit (upperHalf d.word0) d.word1,
      by simp [decode, hbyte 0x01#8 ho, byte1_of_mask (hinit ho)], rfl⟩
  · exact ⟨.spiTransfer (byte1 d.word0) (upperHalf d.word0) d.word1, by simp [decode, hbyte 0x02#8 ho], rfl⟩
  · exact ⟨.spiReceive (byte1 d.word0) (upperHalf d.word0) d.word1, by simp [decode, hbyte 0x03#8 ho], rfl⟩
  · exact ⟨.spiRegWrite d.word1 d.word2, by simp [decode, hbyte 0x04#8 ho, upper24_of_mask (hraw (.inl ho))], rfl⟩
  · exact ⟨.spiRegRead d.word1, by simp [decode, hbyte 0x05#8 ho, upper24_of_mask (hraw (.inr ho))], rfl⟩
  · exact ⟨.accInit (byte1 d.word0) (byte2 d.word0) (byte3 d.word0), by simp [decode, hbyte 0x10#8 ho], rfl⟩
  · exact ⟨.accRead (byte1 d.word0) (byte2 d.word0) (byte3 d.word0) (byte0 d.word1) (upperHalf d.word1) d.word2,
      by simp [decode, hbyte 0x12#8 ho, byte1_of_mask (hread ho)], rfl⟩

/-- Settles O7: a legal descriptor decodes to an issuable command, which the port in IDLE accepts. -/
theorem legalCommandIsAccepted : Obligations.LegalCommandIsAccepted := by
  intro d s hidle hlegal
  obtain ⟨i, hd, hi⟩ := decode_of_legal hlegal
  have hexec : exec i s = .next (s.accept i) := by
    rw [exec_of_idle hidle (onlyCommand_decode d i hd), if_pos hi]
  exact ⟨i, Frame.start i, hd, hi, rfl, rfl, rfl, hexec, by simp only [issue, hd]⟩

/-! HOST's turn -/

theorem step_of_nextTurn {s : State} {a : Turn} (h : s.nextTurn = some a) : step s = agentStep a s.spendTurn := by
  simp only [step, h]

/-- Settles O10: the act waits, so HOST's turn is spent and nothing else happens. -/
theorem commandWaitsOutsideIdle : Obligations.CommandWaitsOutsideIdle := by
  intro s d rest hturn hinbox hmode
  have hwaits : s.spendTurn.actAllowed (.command d) = false := by simpa [State.actAllowed] using hmode
  have hspent : s.spendTurn.inbox = .command d :: rest := hinbox
  rw [step_of_nextTurn hturn, agentStep, hostStep, hspent]
  simp only [hwaits]
  rfl

/-- The reset values the spec gives (R40, R241 to R243, R246). -/
theorem resetValues_hostReset (s : State) : s.hostReset.ResetValues where
  channels := by simp
  registers := by
    intro c ch hch
    rw [State.hostReset_chans, List.getElem?_map] at hch
    obtain ⟨n, -, rfl⟩ := Option.map_eq_some_iff.mp hch
    refine ⟨rfl, rfl, ?_, rfl, rfl⟩
    simp [Channel.statusWord, Channel.atReset]
  idle := rfl
  position := rfl
  operands := rfl
  faultCode := rfl
  faultInfo := rfl
  polls := rfl
  sessions := fun x => by simp [State.accState]
  trace := rfl

/-- Settles O12: a reset acts in every state in which it is HOST's next act. -/
theorem hostResetTakesOneStep : Obligations.HostResetTakesOneStep := by
  intro s rest hturn hinbox
  have hspent : s.spendTurn.inbox = .reset :: rest := hinbox
  refine ⟨{ s.spendTurn with inbox := rest }.hostReset, ?_, resetValues_hostReset _, rfl, rfl, rfl, rfl⟩
  rw [step_of_nextTurn hturn, agentStep, hostStep, hspent]
  rfl

end Sys2Proof.Machine
end

section
/-! O18: what the two raw accesses leave unchanged, whatever the sequencer's state. -/

namespace Sys2Proof.Machine

/-! The parts of a raw access -/

theorem Memory.byte_putWord_other (m : Memory) {a b : Nat} (v : Word) (h : b < a ∨ a + 4 ≤ b) :
    (m.putWord a v).byte b = m.byte b := by
  unfold Memory.putWord
  rw [Memory.byte_putByte_other _ _ _ _ (by omega), Memory.byte_putByte_other _ _ _ _ (by omega),
    Memory.byte_putByte_other _ _ _ _ (by omega), Memory.byte_putByte_other _ _ _ _ (by omega)]

/-- The receive buffer, the shifter and BSY of a channel (R31, R33, R34): none of them is written by an access. -/
def Channel.sameReceiver (ch ch' : Channel) : Prop :=
  ch'.rxbuf = ch.rxbuf ∧ ch'.shift = ch.shift ∧ ch'.shiftActive = ch.shiftActive ∧ ch'.bsy = ch.bsy

theorem Channel.Accessed.sameReceiver {ch ch' : Channel} (h : ch.Accessed ch') : ch.sameReceiver ch' := by
  cases h with
  | statusRead =>
    unfold Channel.afterStatusRead
    split <;> exact ⟨rfl, rfl, rfl, rfl⟩
  | _ => exact ⟨rfl, rfl, rfl, rfl⟩

theorem Channel.sameReceiver_of_afterWrite {ch ch' : Channel} {r : Reg} {v : Half} (h : ch.afterWrite r v = some ch') :
    ch.sameReceiver ch' := by
  rcases Channel.accessed_of_afterWrite h with h | rfl | rfl
  · exact h.sameReceiver
  · exact ⟨rfl, rfl, rfl, rfl⟩
  · exact ⟨rfl, rfl, rfl, rfl⟩

/-- What a raw access makes of the channels: nothing, or an access of the register at the address (R63, R143, R144). -/
inductive RawChans (s : State) (i : Instr) (a v : Word) : List Channel → Prop
  | same : RawChans s i a v s.chans
  | read {c : Nat} {r : Reg} {ch : Channel} (hi : i = .spiRegRead a) (hloc : locate s.params a = some (c, r))
      (hch : s.chans[c]? = some ch) : RawChans s i a v (s.chans.set c (ch.afterRead r))
  | write {c : Nat} {r : Reg} {ch ch' : Channel} (hi : i = .spiRegWrite a v) (hloc : locate s.params a = some (c, r))
      (hch : s.chans[c]? = some ch) (hw : ch.afterWrite r v.lowHalf = some ch') :
      RawChans s i a v (s.chans.set c ch')

/-- What a raw access makes of the memories: nothing, or a write of the platform's word at the address (U2). -/
inductive RawMem (s : State) (i : Instr) (a v : Word) : Memory → Prop
  | same : RawMem s i a v s.mem
  | write (hi : i = .spiRegWrite a v) : RawMem s i a v (s.mem.putWord a.toNat v)

/-- The channels, the memories, RESULT and the position are all that a raw access may change. -/
structure RawEffect (s : State) (i : Instr) (a v : Word) (t : State) : Prop where
  chans : RawChans s i a v t.chans
  mem : RawMem s i a v t.mem
  result : i = .spiRegWrite a v → t.result = s.result
  rest : t = { s with chans := t.chans, mem := t.mem, result := t.result, mode := t.mode, pc := t.pc }

theorem rawEffect_ret (s : State) (i : Instr) (a v : Word) : RawEffect s i a v s.ret := by
  unfold State.ret
  split <;> exact ⟨.same, .same, fun _ => rfl, rfl⟩

theorem rawEffect_of_regRead {s t : State} {a v : Word} (h : execSpiRegRead a s = .next t) :
    RawEffect s (.spiRegRead a) a v t := by
  rcases operation_next h with ⟨-, -, rfl⟩ | ⟨-, hi, -⟩ | ⟨-, rfl⟩ | ⟨f, rest, -, h⟩
  · exact ⟨.same, .same, nofun, rfl⟩
  · cases hi
  · exact ⟨.same, .same, nofun, rfl⟩
  · split at h
    · rcases memRead_next h with ⟨-, ⟨c, r, ch, hloc, hch, hk⟩ | ⟨-, -, hk⟩⟩
      · cases hk
        exact ⟨.read rfl hloc hch, .same, nofun, rfl⟩
      · cases hk
        exact ⟨.same, .same, nofun, rfl⟩
    · cases h
      exact rawEffect_ret s _ a v
    · cases h

theorem rawEffect_of_regWrite {s t : State} {a v : Word} (h : execSpiRegWrite a v s = .next t) :
    RawEffect s (.spiRegWrite a v) a v t := by
  rcases operation_next h with ⟨-, -, rfl⟩ | ⟨-, hi, -⟩ | ⟨-, rfl⟩ | ⟨f, rest, -, h⟩
  · exact ⟨.same, .same, fun _ => rfl, rfl⟩
  · cases hi
  · exact ⟨.same, .same, fun _ => rfl, rfl⟩
  · split at h
    · rcases memWrite_next h with ⟨-, ⟨c, r, ch, ch', hloc, hch, hw, hk⟩ | ⟨-, -, hk⟩⟩
      · cases hk
        exact ⟨.write rfl hloc hch hw, .same, fun _ => rfl, rfl⟩
      · cases hk
        exact ⟨.same, .write rfl, fun _ => rfl, rfl⟩
    · cases h
      exact rawEffect_ret s _ a v
    · cases h

theorem RawMem.buffers_tables {s : State} {i : Instr} {a v : Word} {m : Memory} (h : RawMem s i a v m) :
    (i = .spiRegRead a → m = s.mem) ∧ m.buffers = s.mem.buffers ∧ m.tables = s.mem.tables
      ∧ ∀ b, (b < a.toNat ∨ a.toNat + 4 ≤ b) → m.byte b = s.mem.byte b := by
  cases h with
  | same => exact ⟨fun _ => rfl, rfl, rfl, fun _ _ => rfl⟩
  | write hi => exact ⟨fun h => (nomatch hi.symm.trans h), rfl, rfl, fun b hb => Memory.byte_putWord_other _ v hb⟩

/-- What a raw access leaves of channel `c`: the receiver, all of it if the address is not its own, and under a read the
control registers and the transmit side. -/
def RawKept (s : State) (i : Instr) (a : Word) (c : Nat) (ch ch' : Channel) : Prop :=
  ch'.rxbuf = ch.rxbuf ∧ ch'.shift = ch.shift ∧ ch'.shiftActive = ch.shiftActive ∧ ch'.bsy = ch.bsy
    ∧ ((∀ r, locate s.params a ≠ some (c, r)) → ch' = ch)
    ∧ (i = .spiRegRead a → ch'.ctrl1 = ch.ctrl1 ∧ ch'.ctrl2 = ch.ctrl2 ∧ ch'.txbuf = ch.txbuf ∧ ch'.txe = ch.txe)

theorem rawKept_refl (s : State) (i : Instr) (a : Word) (c : Nat) (ch : Channel) : RawKept s i a c ch ch :=
  ⟨rfl, rfl, rfl, rfl, fun _ => rfl, fun _ => ⟨rfl, rfl, rfl, rfl⟩⟩

theorem afterRead_transmit (ch : Channel) (r : Reg) :
    (ch.afterRead r).txbuf = ch.txbuf ∧ (ch.afterRead r).txe = ch.txe := by
  cases r with
  | status =>
    unfold Channel.afterRead Channel.afterStatusRead
    dsimp only
    split <;> exact ⟨rfl, rfl⟩
  | _ => exact ⟨rfl, rfl⟩

theorem RawChans.kept {s : State} {i : Instr} {a v : Word} {chans : List Channel} (h : RawChans s i a v chans) :
    chans.length = s.chans.length
      ∧ ∀ c ch, s.chans[c]? = some ch → ∃ ch', chans[c]? = some ch' ∧ RawKept s i a c ch ch' := by
  cases h with
  | same => exact ⟨rfl, fun c ch hch => ⟨ch, hch, rawKept_refl s i a c ch⟩⟩
  | @read c r ch hi hloc hch =>
    have hacc := ch.accessed_afterRead r
    obtain ⟨hrx, hshift, hactive, hbsy⟩ := hacc.sameReceiver
    refine ⟨by simp, forall_getElem?_set (R := RawKept s i a) hch ?_ fun _ _ _ => rawKept_refl _ _ _ _ _⟩
    exact ⟨hrx, hshift, hactive, hbsy, fun hno => absurd hloc (hno r),
      fun _ => ⟨hacc.ctrl1, hacc.ctrl2, afterRead_transmit ch r⟩⟩
  | @write c r ch ch' hi hloc hch hw =>
    obtain ⟨hrx, hshift, hactive, hbsy⟩ := Channel.sameReceiver_of_afterWrite hw
    refine ⟨by simp, forall_getElem?_set (R := RawKept s i a) hch ?_ fun _ _ _ => rawKept_refl _ _ _ _ _⟩
    exact ⟨hrx, hshift, hactive, hbsy, fun hno => absurd hloc (hno r), fun h => nomatch hi.symm.trans h⟩

/-- Settles O18: a raw access keeps what is outside channels, memories, RESULT and position, and of these what
`RawChans.kept` and `RawMem.buffers_tables` say. -/
theorem rawAccessFrame : Obligations.RawAccessFrame := by
  intro s t a v i hi h
  have heffect : RawEffect s i a v t := by
    rcases hi with rfl | rfl
    · exact rawEffect_of_regRead h
    · exact rawEffect_of_regWrite h
  obtain ⟨hchans, hmem, hresult, ht⟩ := heffect
  obtain ⟨hread, hbuffers, htables, hbytes⟩ := hmem.buffers_tables
  obtain ⟨hlen, hkept⟩ := hchans.kept
  have hworld : SameWorld s t := by
    rw [ht]
    exact ⟨rfl, rfl, rfl, rfl, rfl⟩
  have hfault : t.faultCode = s.faultCode ∧ t.faultInfo = s.faultInfo ∧ t.latches = s.latches := by
    rw [ht]
    exact ⟨rfl, rfl, rfl⟩
  refine ⟨hworld, ?_, ?_, ?_, ?_, ?_, ?_, ?_, hfault, hresult, hread, hbuffers, htables, hbytes, hlen, hkept⟩
  all_goals rw [ht]

end Sys2Proof.Machine
end

section
/-! O8, O9: whose step it is, and what the step of the agent whose turn it is runs. -/

namespace Sys2Proof.Machine

/-! What a step runs (R76, R90, R110) -/

/-- SEQ's turn in RUN is a step of the operation on top of the stack (R39). -/
theorem step_of_running {s : State} {f : Frame} {rest : List Frame} (hturn : s.nextTurn = some .seq)
    (hrun : s.running f rest) : step s = exec f.op s.spendTurn := by
  obtain ⟨hmode, hpc⟩ : s.spendTurn.running f rest := hrun
  rw [step_of_nextTurn hturn]
  simp only [agentStep, seqStep, hmode, hpc]

/-- HOST's turn takes its next act, where that can take place (R6, R79, R240). -/
theorem step_of_hostActs {s : State} {a : HostAct} {rest : List HostAct} (hturn : s.nextTurn = some .host)
    (hinbox : s.inbox = a :: rest) (hallow : s.actAllowed a = true) :
    step s = hostAct a { s.spendTurn with inbox := rest } := by
  have hspent : s.spendTurn.inbox = a :: rest := hinbox
  have hallow' : s.spendTurn.actAllowed a = true := by cases a <;> exact hallow
  rw [step_of_nextTurn hturn]
  simp only [agentStep, hostStep, hspent, hallow']
  rfl

/-- A frame in flight keeps LINK_START from being enabled (R192, R193). -/
theorem Channel.startEnabled_of_completeEnabled {ch : Channel} (h : ch.completeEnabled = true) :
    ch.startEnabled = false := by
  obtain ⟨-, hactive⟩ := Bool.and_eq_true_iff.mp h
  simp [Channel.startEnabled, hactive]

/-- The completion of an 8-bit frame that a device waits for is the wire form of its byte (R110, R199). -/
theorem linkStep_of_header {s : State} {c : Nat} {ch : Channel} (hch : s.chans[c]? = some ch)
    (hen : ch.completeEnabled = true) (hwide : ch.wide = false) (hdue : s.headerDue c = true) :
    linkStep c s = exec (decodeHeader ch.shift.lowByte) { s with lnk := c } := by
  simp [linkStep, hch, Channel.startEnabled_of_completeEnabled hen, hen, hwide, hdue]

/-- Settles O8, agent by agent. -/
theorem stepRunsTheInstruction : Obligations.StepRunsTheInstruction := by
  refine ⟨?_, ?_, ?_, ?_⟩
  · intro s d rest i hturn hidle hinbox hd
    have hallow : s.actAllowed (.command d) = true := by simp [State.actAllowed, hidle]
    rw [step_of_hostActs hturn hinbox hallow]
    simp only [hostAct, issue, hd]
    rfl
  · intro s f rest hturn hrun
    exact step_of_running hturn hrun
  · intro s c ch hturn hch hen hwide hdue
    rw [step_of_nextTurn hturn]
    exact linkStep_of_header (s := s.spendTurn) hch hen hwide hdue
  · intro s t more hturns
    have hturn := State.nextTurn_of_turns hturns
    refine ⟨hturn, ?_⟩
    rw [step_of_nextTurn hturn, State.spendTurn, hturns]
    rfl

/-! Who may move (R78, R79, R198) -/

theorem State.mem_choices (s : State) (x : Option Turn) :
    x ∈ s.choices ↔ (x = none ∧ s.mode ≠ .run) ∨ ∃ t, t ∈ s.readyTurns ∧ x = some t := by
  by_cases hm : s.mode = .run <;> simp [State.choices, hm, eq_comm]

/-- The free choice names one of the choices, also where there is but one (log 1). -/
theorem State.getElem?_choices_pick {s : State} (h : s.turns = []) :
    s.choices[Config.pick s.tick % s.choices.length]? = some s.nextTurn := by
  simp only [State.nextTurn, h]
  split
  · rename_i x hx
    simp [hx, Nat.mod_one]
  · have hlt : Config.pick s.tick % s.choices.length < s.choices.length :=
      Nat.mod_lt _ (List.length_pos_iff.mpr s.choices_ne_nil)
    simp [List.getElem?_eq_getElem hlt]

theorem State.seq_mem_readyTurns {s : State} (h : s.mode = .run) : .seq ∈ s.readyTurns := by
  simp [State.readyTurns, h]

theorem State.host_mem_readyTurns (s : State) :
    .host ∈ s.readyTurns ↔ ∃ a, s.inbox.head? = some a ∧ s.actAllowed a = true := by
  have hready : .host ∈ s.readyTurns ↔ s.hostReady = true := by
    simp [State.readyTurns]
  rw [hready]
  unfold State.hostReady
  cases s.inbox <;> simp

theorem State.link_mem_readyTurns (s : State) (c : Nat) : .link c ∈ s.readyTurns ↔ s.linkReady c = true := by
  have hready : .link c ∈ s.readyTurns ↔ c < s.chans.length ∧ s.linkReady c = true := by
    simp [State.readyTurns]
  refine hready.trans ⟨fun h => h.2, fun h => ⟨?_, h⟩⟩
  by_contra hge
  have hnone : s.chans[c]? = none := by simpa using hge
  simp [State.linkReady, hnone] at h

/-- Beside a link agent's step something else may come next: SEQ's in RUN, nothing outside it (R198). -/
theorem State.choices_beside_link (s : State) (c : Nat) : ∃ x, x ∈ s.choices ∧ x ≠ some (.link c) := by
  by_cases hm : s.mode = .run
  · exact ⟨some .seq, (s.mem_choices _).mpr (.inr ⟨.seq, State.seq_mem_readyTurns hm, rfl⟩), nofun⟩
  · exact ⟨none, (s.mem_choices _).mpr (.inl ⟨rfl, hm⟩), nofun⟩

/-- Settles O9: the free choice is among the ready agents and, outside RUN, nobody. -/
theorem scheduleChoosesAReadyAgent : Obligations.ScheduleChoosesAReadyAgent := by
  intro s hturns
  have hmem := (s.mem_choices _).mp (State.nextTurn_mem_choices hturns)
  refine ⟨s.mem_choices, State.getElem?_choices_pick hturns, fun c _ => s.choices_beside_link c, ?_, ?_,
    State.seq_mem_readyTurns, s.host_mem_readyTurns, s.link_mem_readyTurns⟩
  · intro hnone
    rcases hmem with ⟨hwait, -⟩ | ⟨t, ht, -⟩
    · exact hwait
    · simp [hnone] at ht
  · intro hwait
    rcases hmem with ⟨-, hm⟩ | ⟨t, -, ht⟩
    · have htail : s.turns.tail = s.turns := by rw [hturns]; rfl
      exact ⟨hm, by simp only [step, hwait, State.spendTurn, htail]⟩
    · exact nomatch hwait.symm.trans ht

end Sys2Proof.Machine
end

section
/-! O57: the chip-select line of a transaction. A step either keeps the pins and opens no window (`WindowWithin`), or
is line 3 of CS_ASSERT or CS_DEASSERT, which drives the line of the window it opens or closes. -/

namespace Sys2Proof.Machine

/-! Windows (R174) -/

/-- A window other than idle in `w'` stands on the line of one other than idle in `w`. -/
def WindowWithin (w w' : Option (CsPhase × Byte × Byte)) : Prop :=
  ∀ ph port pin, w' = some (ph, port, pin) → ph = .idle ∨ ∃ ph', ph' ≠ .idle ∧ w = some (ph', port, pin)

theorem WindowWithin.refl (w : Option (CsPhase × Byte × Byte)) : WindowWithin w w := by
  intro ph port pin hw
  by_cases hidle : ph = .idle
  · exact .inl hidle
  · exact .inr ⟨ph, hidle, hw⟩

theorem windowWithin_none (w : Option (CsPhase × Byte × Byte)) : WindowWithin w none := nofun

theorem windowWithin_idle (w : Option (CsPhase × Byte × Byte)) (port pin : Byte) :
    WindowWithin w (some (.idle, port, pin)) := by
  rintro _ _ _ ⟨⟩
  exact .inl rfl

theorem windowWithin_of_open {ph : CsPhase} (ph' : CsPhase) (port pin : Byte) (h : ph ≠ .idle) :
    WindowWithin (some (ph, port, pin)) (some (ph', port, pin)) := by
  rintro _ _ _ ⟨⟩
  exact .inr ⟨ph, h, rfl⟩

theorem State.selectOk_iff (s : State) : s.selectOk = true ↔
    ∀ ph port pin, csWindow s.pc = some (ph, port, pin) → ph = .idle ∨ s.pin port.toNat pin.toNat = false := by
  unfold State.selectOk
  cases csWindow s.pc with
  | none => simp
  | some w =>
    obtain ⟨ph, port, pin⟩ := w
    simp only [Bool.or_eq_true, beq_iff_eq, Bool.not_eq_true']
    exact ⟨fun h => by rintro _ _ _ ⟨⟩; exact h, fun h => h _ _ _ rfl⟩

/-- A step that keeps the pins and opens no window keeps the selection. -/
theorem State.selectOk_of_within {s t : State} (hs : s.selectOk = true) (hpins : t.pins = s.pins)
    (hw : WindowWithin (csWindow s.pc) (csWindow t.pc)) : t.selectOk = true := by
  rw [State.selectOk_iff] at hs ⊢
  intro ph port pin ht
  refine (hw ph port pin ht).imp_right fun ⟨ph', hph', hopen⟩ => ?_
  have hlow := (hs ph' port pin hopen).resolve_left hph'
  rwa [State.pin, hpins]

theorem State.selectOk_of_empty {t : State} (hpc : t.pc = []) : t.selectOk = true := by
  simp [State.selectOk, hpc, csWindow]

/-- A line just driven low is low (R162). -/
theorem State.pin_pinWrite_low (s : State) (port pin : Byte) :
    (s.pinWrite port pin false).pin port.toNat pin.toNat = false := by
  simp only [State.pin, State.pinWrite_pins, setPinLatch]
  split
  · rename_i row hrow
    obtain ⟨hp, -⟩ := Vector.getElem?_eq_some_iff.mp hrow
    by_cases hn : pin.toNat < 16 <;> simp [hp, hn]
  · rename_i hrow
    simp [hrow]

/-! The window of a stack -/

/-- The frame is of an accelerometer transaction (R174). -/
def Frame.transacts (f : Frame) : Prop :=
  (∃ ch port pin addr value, f.op = .accWrite ch port pin addr value)
    ∨ ∃ ch port pin addr count buf, f.op = .accRead ch port pin addr count buf

theorem Frame.window_of_not_transacts {f : Frame} (h : ¬ f.transacts) (callee : Option Frame) :
    f.window callee = none := by
  unfold Frame.window
  split
  · rename_i hop
    exact absurd (.inl ⟨_, _, _, _, _, hop⟩) h
  · rename_i hop
    exact absurd (.inr ⟨_, _, _, _, _, _, hop⟩) h
  · rfl

theorem csWindow_of_not_transacts {f : Frame} (h : ¬ f.transacts) :
    ∀ rest : List Frame, csWindow (f :: rest) = rest.head?.bind (fun g => g.window (some f)) := by
  intro rest
  simp [csWindow, Frame.window_of_not_transacts h]

theorem csWindow_of_transacts {f : Frame} (h : f.transacts) (rest : List Frame) :
    csWindow (f :: rest) = f.window none := by
  rcases h with ⟨ch, port, pin, addr, value, hop⟩ | ⟨ch, port, pin, addr, count, buf, hop⟩ <;>
    simp [csWindow, Frame.window, hop]

theorem Frame.transacts.callDepth {f : Frame} (h : f.transacts) : callDepth f.op = 1 := by
  rcases h with ⟨ch, port, pin, addr, value, hop⟩ | ⟨ch, port, pin, addr, count, buf, hop⟩ <;> rw [hop] <;> rfl

/-- A caller that is of no transaction is ACC_INIT (R160). -/
theorem calls_depth_of_not_transacts {p : Params} {f : Frame} {i : Instr} (hcall : calls p f i = true)
    (hf : ¬ f.transacts) : callDepth f.op = 2 := by
  rcases calls_inv hcall with ⟨⟨ch, port, pin, hop⟩, -⟩ | ⟨htr, -⟩
  · rw [hop]
    rfl
  · exact absurd htr hf

/-- An operation starts with its window closed (R165, R171). -/
theorem Frame.window_start (w : Option (CsPhase × Byte × Byte)) (i : Instr) :
    WindowWithin w ((Frame.start i).window none) := by
  cases i with
  | accWrite ch port pin addr value => exact windowWithin_idle w port pin
  | accRead ch port pin addr count buf => exact windowWithin_idle w port pin
  | _ => exact windowWithin_none w

/-- Only line 4 of a callee shows in its caller's window: there the pin has been written (R162, R165, R171). -/
theorem Frame.window_callee {f g : Frame} (h : g.line ≠ 4) : f.window (some g) = f.window none := by
  simp [Frame.window, windowPhase, h]

/-- The operation drives no chip-select line (R162, R163). -/
def keepsPins (i : Instr) : Prop := ∀ port pin, i ≠ .csAssert port pin ∧ i ≠ .csDeassert port pin

/-- What a transaction shows of its window while it calls: CS_ASSERT of its line opens the window once it has driven the
pin, the transfer of the header and the data stand in an open one, CS_DEASSERT of its line closes it (R165, R171, R174). -/
theorem calls_window {p : Params} {g : Frame} {i : Instr} (hcall : calls p g i = true) (hg : g.transacts) :
    ∃ port pin,
      (i = .csAssert port pin ∧ (∀ f : Frame, f.line = 4 → g.window (some f) = some (.header, port, pin))
        ∧ ∃ ph, g.next.window none = some (ph, port, pin))
      ∨ (keepsPins i ∧ ∃ ph ph', ph ≠ .idle ∧ (∀ callee, g.window callee = some (ph, port, pin))
        ∧ g.next.window none = some (ph', port, pin))
      ∨ (i = .csDeassert port pin ∧ (∀ f : Frame, f.line = 4 → g.window (some f) = some (.idle, port, pin))
        ∧ g.next.window none = some (.idle, port, pin)) := by
  rcases hg with ⟨ch, port, pin, addr, value, hop⟩ | ⟨ch, port, pin, addr, count, buf, hop⟩
  · simp only [calls, hop, Bool.or_eq_true, Bool.and_eq_true, beq_iff_eq] at hcall
    have hwin : ∀ c, g.window c = some (windowPhase 3 none g.line c, port, pin) := by simp [Frame.window, hop]
    have hnext : g.next.window none = some (windowPhase 3 none (g.line + 1) none, port, pin) := by
      simp [Frame.window, hop]
    refine ⟨port, pin, ?_⟩
    simp only [hwin, hnext]
    rcases hcall with (⟨hl, rfl⟩ | ⟨hl, rfl⟩) | ⟨hl, rfl⟩ <;> rw [hl]
    · exact .inl ⟨rfl, fun f hf => by simp [windowPhase, hf], _, rfl⟩
    · exact .inr (.inl ⟨by simp [keepsPins], .header, _, nofun, fun _ => rfl, rfl⟩)
    · exact .inr (.inr ⟨rfl, fun f hf => by simp [windowPhase, hf], rfl⟩)
  · simp only [calls, hop, Bool.or_eq_true, Bool.and_eq_true, beq_iff_eq] at hcall
    have hwin : ∀ c, g.window c = some (windowPhase 2 (some 4) g.line c, port, pin) := by simp [Frame.window, hop]
    have hnext : g.next.window none = some (windowPhase 2 (some 4) (g.line + 1) none, port, pin) := by
      simp [Frame.window, hop]
    refine ⟨port, pin, ?_⟩
    simp only [hwin, hnext]
    rcases hcall with ((⟨hl, rfl⟩ | ⟨hl, rfl⟩) | ⟨hl, rfl⟩) | ⟨hl, rfl⟩ <;> rw [hl]
    · exact .inl ⟨rfl, fun f hf => by simp [windowPhase, hf], _, rfl⟩
    · exact .inr (.inl ⟨by simp [keepsPins], .header, _, nofun, fun _ => rfl, rfl⟩)
    · exact .inr (.inl ⟨by simp [keepsPins], .data, _, nofun, fun _ => rfl, rfl⟩)
    · exact .inr (.inr ⟨rfl, fun f hf => by simp [windowPhase, hf], rfl⟩)

/-- A callee that drives no chip-select stands at no line where its caller's phase depends on it (R165, R171). -/
theorem Frame.window_of_calls {p : Params} {g : Frame} {i : Instr} (hcall : calls p g i = true) (hi : keepsPins i)
    (callee : Frame) : g.window (some callee) = g.window none := by
  by_cases hg : g.transacts
  · obtain ⟨port, pin, ⟨rfl, -⟩ | ⟨-, ph, ph', -, hwin, -⟩ | ⟨rfl, -⟩⟩ := calls_window hcall hg
    · exact absurd rfl (hi port pin).1
    · rw [hwin, hwin]
    · exact absurd rfl (hi port pin).2
  · rw [Frame.window_of_not_transacts hg, Frame.window_of_not_transacts hg]

/-- A caller's window after the return shows no more than before it (R165, R171). -/
theorem Frame.window_return {p : Params} {f g : Frame} (hcall : calls p g f.op = true)
    (hcs : ¬ keepsPins f.op → f.line = 4) : WindowWithin (g.window (some f)) (g.next.window none) := by
  by_cases hg : g.transacts
  · obtain ⟨port, pin, ⟨hop, hopen, ph, hnext⟩ | ⟨-, ph, ph', hph, hwin, hnext⟩ | ⟨-, -, hnext⟩⟩ :=
      calls_window hcall hg
    · have hdriven : f.line = 4 := hcs fun h => (h port pin).1 hop
      rw [hopen f hdriven, hnext]
      exact windowWithin_of_open _ port pin nofun
    · rw [hwin, hnext]
      exact windowWithin_of_open _ port pin hph
    · rw [hnext]
      exact windowWithin_idle _ port pin
  · have hnext : ¬ g.next.transacts := hg
    rw [Frame.window_of_not_transacts hnext]
    exact windowWithin_none _

/-- The window of the caller of a chip-select operation that has driven its pin: open on that line after CS_ASSERT,
closed after CS_DEASSERT (R165, R171, R174). -/
theorem Frame.window_after_pin {p : Params} {f g : Frame} {level : Bool} {port pin : Byte}
    (hcall : calls p g (if level then .csDeassert port pin else .csAssert port pin) = true) (hline : f.line = 4) :
    g.window (some f) = some (if level then .idle else .header, port, pin) := by
  have hg : g.transacts := by
    rcases calls_inv hcall with ⟨-, -, hdepth, -⟩ | ⟨hg, -⟩
    · cases level <;> cases hdepth
    · exact hg
  obtain ⟨port', pin', ⟨hop, hopen, -⟩ | ⟨hkeeps, -⟩ | ⟨hop, hclosed, -⟩⟩ := calls_window hcall hg
  · cases level with
    | true => cases hop
    | false =>
      cases hop
      exact hopen f hline
  · cases level with
    | true => exact absurd rfl (hkeeps port pin).2
    | false => exact absurd rfl (hkeeps port pin).1
  · cases level with
    | true =>
      cases hop
      exact hclosed f hline
    | false => cases hop

/-! What a step of SEQ does to the stack's window -/

/-- What is on the stack after a line: nothing, the same operation on top, the caller's next line, or a callee. -/
theorem LineEffect.pc_cases {s t : State} {f : Frame} {rest : List Frame} (h : LineEffect s f t)
    (hrun : s.running f rest) : t.pc = [] ∨ (∃ g, g.op = f.op ∧ t.pc = g :: rest) ∨ t = s.ret
      ∨ ∃ i, calls s.params f i = true ∧ t = s.call i := by
  have htail : s.pc.tail = rest := by rw [hrun.2]; rfl
  have htop : ∀ {u : State} {g : Frame}, g.op = f.op → u.pc = g :: s.pc.tail →
      u.pc = [] ∨ (∃ g, g.op = f.op ∧ u.pc = g :: rest) ∨ u = s.ret ∨ ∃ i, calls s.params f i = true ∧ u = s.call i :=
    fun hop hpc => .inr (.inl ⟨_, hop, htail ▸ hpc⟩)
  cases h with
  | raise x info => exact .inl rfl
  | ret => exact .inr (.inr (.inl rfl))
  | call i hcall => exact .inr (.inr (.inr ⟨i, hcall, rfl⟩))
  | header tx hf hch => exact .inr (.inl ⟨f, rfl, hrun.2⟩)
  | advance g hop => exact htop hop rfl
  | access hch hacc g hop => exact htop hop rfl
  | poll hch g hop n => exact htop hop rfl
  | fieldWrite => exact htop (initAfter_op _ _ _) rfl
  | store hf hw =>
    rcases bufWrite_some hw with ⟨-, -, rfl⟩ | ⟨-, -, rfl⟩ <;> exact htop (Frame.loop_op _ _ _ _) rfl
  | _ => exact htop (g := f.next) rfl rfl

/-- A call opens no window: the callee's own is closed, its caller's as it was (R160, R174). -/
theorem windowWithin_call (f : Frame) (rest : List Frame) (i : Instr) :
    WindowWithin (csWindow (f :: rest)) (csWindow (Frame.start i :: f :: rest)) := by
  by_cases hi : (Frame.start i).transacts
  · rw [csWindow_of_transacts hi]
    exact Frame.window_start _ i
  · have hcaller : csWindow (Frame.start i :: f :: rest) = f.window none :=
      (csWindow_of_not_transacts hi _).trans (Frame.window_callee (by simp))
    rw [hcaller]
    by_cases hf : f.transacts
    · rw [csWindow_of_transacts hf]
      exact .refl _
    · rw [Frame.window_of_not_transacts hf]
      exact windowWithin_none _

/-- A running step of an operation that neither drives a chip-select nor is of a transaction opens no window: what its
caller shows does not depend on it (R165, R171). -/
theorem windowWithin_top {p : Params} {f g : Frame} {rest : List Frame} (hbelow : stackBelow p rest f.op = true)
    (hop : g.op = f.op) (hf : ¬ f.transacts) (hcs : keepsPins f.op) :
    WindowWithin (csWindow (f :: rest)) (csWindow (g :: rest)) := by
  have hg : ¬ g.transacts := by rwa [Frame.transacts, hop]
  rw [csWindow_of_not_transacts hf, csWindow_of_not_transacts hg]
  cases rest with
  | nil => exact windowWithin_none _
  | cons caller rest =>
    obtain ⟨hcall, -⟩ := stackBelow_cons hbelow
    simp only [List.head?_cons, Option.bind_some, Frame.window_of_calls hcall hcs]
    exact .refl _

/-- A transaction writes HDR before its window opens (R165, R171). -/
theorem selectOk_hdrWrite {s : State} {f : Frame} {i : Nat} {v : Half} {port pin : Byte} (hs : s.selectOk = true)
    (hidle : f.next.window none = some (.idle, port, pin)) : ((s.setHdr i v).setTop f.next).selectOk = true := by
  refine State.selectOk_of_within hs rfl ?_
  have hwin : csWindow (f.next :: s.pc.tail) = some (.idle, port, pin) := by
    simp only [csWindow, hidle]
  rw [State.setTop_pc, State.setHdr_pc, hwin]
  exact windowWithin_idle _ port pin

section Standing

variable {s t : State} {f : Frame} {rest : List Frame} (h : s.Stands f rest) (hs : s.selectOk = true)

include h hs

theorem State.Stands.selectOk_call (i : Instr) : (s.call i).selectOk = true := by
  refine State.selectOk_of_within hs rfl ?_
  rw [State.call_pc, h.running.2]
  exact windowWithin_call f rest i

/-- A return opens no window: a chip-select operation returns after it has driven its pin (R160, R174). -/
theorem State.Stands.selectOk_ret (hcs : ¬ keepsPins f.op → f.line = 4) : s.ret.selectOk = true := by
  have hpc := h.running.2
  cases rest with
  | nil =>
    rw [s.ret_to_idle f hpc]
    exact State.selectOk_of_empty rfl
  | cons g gs =>
    obtain ⟨hcall, hbelow⟩ := stackBelow_cons h.below
    have hdepth := calls_depth hcall
    refine State.selectOk_of_within hs s.ret_pins ?_
    rw [s.ret_to_caller f g gs hpc, hpc]
    by_cases hg : g.transacts
    · have hf : ¬ f.transacts := fun hf => by
        have := hf.callDepth
        have := hg.callDepth
        omega
      have hg' : g.next.transacts := hg
      rw [csWindow_of_not_transacts hf, csWindow_of_transacts hg']
      exact Frame.window_return hcall hcs
    · have hnext : ¬ g.next.transacts := hg
      rw [csWindow_of_not_transacts hnext]
      cases gs with
      | nil => exact windowWithin_none _
      | cons g' gs' =>
        have hdepth' := calls_depth (stackBelow_cons hbelow).1
        have hbound := callDepth_le g'.op
        have hinit := calls_depth_of_not_transacts hcall hg
        omega

/-- A line of an operation that neither drives a chip-select nor is of a transaction. -/
theorem selectOk_of_quiet (hf : ¬ f.transacts) (hcs : keepsPins f.op) (heffect : LineEffect s f t) :
    t.selectOk = true := by
  have hpins : t.pins = s.pins := by
    by_contra hne
    obtain ⟨-, port, pin, hop⟩ := heffect.pins_changed hne
    exact hop.elim (hcs port pin).1 (hcs port pin).2
  rcases heffect.pc_cases h.running with hpc | ⟨g, hop, hpc⟩ | rfl | ⟨i, -, rfl⟩
  · exact State.selectOk_of_empty hpc
  · refine State.selectOk_of_within hs hpins ?_
    rw [h.running.2, hpc]
    exact windowWithin_top h.below hop hf hcs
  · exact h.selectOk_ret hs fun hno => absurd hcs hno
  · exact h.selectOk_call hs i

theorem selectOk_accWrite {ch port pin addr value : Byte} (hop : f.op = .accWrite ch port pin addr value)
    (hx : execAccWrite ch port pin addr value s = .next t) : t.selectOk = true := by
  rw [execAccWrite, operation_of_running h.running] at hx
  split at hx
  case h_1 hl =>
    obtain ⟨-, rfl⟩ := headerLine_next hx
    exact selectOk_hdrWrite (port := port) (pin := pin) hs (by simp [Frame.window, hop, windowPhase, hl])
  case h_2 hl =>
    cases hx
    exact selectOk_hdrWrite (port := port) (pin := pin) hs (by simp [Frame.window, hop, windowPhase, hl])
  case h_3 | h_4 | h_5 => cases hx; exact h.selectOk_call hs _
  case h_6 => cases hx; exact h.selectOk_ret hs fun hno => absurd (by simp [keepsPins, hop]) hno
  case h_7 => cases hx

theorem selectOk_accRead {ch port pin addr : Byte} {count : Half} {buf : Word}
    (hop : f.op = .accRead ch port pin addr count buf)
    (hx : execAccRead ch port pin addr count buf s = .next t) : t.selectOk = true := by
  rw [execAccRead, operation_of_running h.running] at hx
  split at hx
  case h_1 hl =>
    obtain ⟨-, rfl⟩ := headerLine_next hx
    exact selectOk_hdrWrite (port := port) (pin := pin) hs (by simp [Frame.window, hop, windowPhase, hl])
  case h_2 | h_3 | h_4 | h_5 => cases hx; exact h.selectOk_call hs _
  case h_6 => cases hx; exact h.selectOk_ret hs fun hno => absurd (by simp [keepsPins, hop]) hno
  case h_7 => cases hx

/-- Lines 1 and 2 of a chip-select operation: an assertion that goes on short of line 4, or raises. -/
theorem selectOk_assertLine {cond : Bool} {x : FaultCause} {info : Word} (hf : ¬ f.transacts) (hline : f.line ≤ 2)
    (hx : assertLine cond x info f s = .next t) : t.selectOk = true := by
  rcases assertLine_next hx with ⟨-, rfl⟩ | ⟨-, rfl⟩
  · refine State.selectOk_of_within hs rfl ?_
    have hnext : ¬ f.next.transacts := hf
    have hshows : ∀ g : Frame, g.window (some f.next) = g.window (some f) := fun g => by
      rw [g.window_callee (g := f) (by omega), g.window_callee (by simp; omega)]
    rw [State.setTop_pc, h.running.2, List.tail_cons, csWindow_of_not_transacts hf, csWindow_of_not_transacts hnext]
    simp only [hshows]
    exact .refl _
  · exact State.selectOk_of_empty rfl

omit hs in
/-- Line 3 drives the line of the caller's window: low where the window opens, high where it closes (R162, R163). -/
theorem selectOk_pinWrite {level : Bool} {port pin : Byte} (hf : ¬ f.transacts)
    (hop : f.op = if level then .csDeassert port pin else .csAssert port pin) (hline : f.line = 3) :
    ((s.pinWrite port pin level).setTop f.next).selectOk = true := by
  have hnext : ¬ f.next.transacts := hf
  refine (State.selectOk_iff _).mpr ?_
  rw [State.setTop_pc, State.pinWrite_pc, h.running.2, List.tail_cons, csWindow_of_not_transacts hnext]
  intro ph port' pin' hwin
  have hbelow := h.below
  cases rest with
  | nil => cases hwin
  | cons g gs =>
    have hcall := (stackBelow_cons hbelow).1
    rw [hop] at hcall
    have hshown := Frame.window_after_pin (f := f.next) hcall (by simp [hline])
    rw [List.head?_cons, Option.bind_some, hshown] at hwin
    cases hwin
    cases level with
    | true => exact .inl rfl
    | false => exact .inr (s.pin_pinWrite_low port pin)

theorem selectOk_chipSelect {level : Bool} {port pin : Byte}
    (hop : f.op = if level then .csDeassert port pin else .csAssert port pin)
    (hx : chipSelect level port pin f s = .next t) : t.selectOk = true := by
  have hf : ¬ f.transacts := by cases level <;> simp [Frame.transacts, hop]
  rcases chipSelect_next hx with ⟨hl, hx⟩ | ⟨hl, hx⟩ | ⟨hl, rfl⟩ | ⟨hl, rfl⟩
  · exact selectOk_assertLine h hs hf (by omega) hx
  · exact selectOk_assertLine h hs hf (by omega) hx
  · exact selectOk_pinWrite h hf hop hl
  · exact h.selectOk_ret hs fun _ => hl

/-- Every step of the operation on top keeps the selection (R172, R174). -/
theorem State.Stands.selectOk_exec (hx : exec f.op s = .next t) : t.selectOk = true := by
  have heffect := lineEffect_of_exec h.running hx
  cases hop : f.op with
  | accWrite ch port pin addr value => exact selectOk_accWrite h hs hop (by rwa [hop] at hx)
  | accRead ch port pin addr count buf => exact selectOk_accRead h hs hop (by rwa [hop] at hx)
  | csAssert port pin =>
    rw [hop] at hx
    exact selectOk_chipSelect (level := false) h hs hop ((operation_of_running h.running).symm.trans hx)
  | csDeassert port pin =>
    rw [hop] at hx
    exact selectOk_chipSelect (level := true) h hs hop ((operation_of_running h.running).symm.trans hx)
  | _ => exact selectOk_of_quiet h hs (by simp [Frame.transacts, hop]) (by simp [keepsPins, hop]) heffect

end Standing

/-! Agents -/

theorem csWindow_singleton (f : Frame) : csWindow [f] = f.window none := by
  cases hf : f.window none <;> simp [csWindow, hf]

/-- A command accepted stands alone, its window closed (R39, R90). -/
theorem State.selectOk_accept {s : State} (hpc : s.pc = []) (i : Instr) : (s.accept i).selectOk = true := by
  refine State.selectOk_of_within (State.selectOk_of_empty hpc) rfl ?_
  rw [State.accept_pc, hpc, csWindow_singleton]
  exact Frame.window_start _ i

/-- Settles O57: a line of SEQ's by what it does to the window and the pins; every other step opens no window and, but
for a reset, which empties the stack, leaves the pins. -/
theorem chipSelectStaysLow : Obligations.ChipSelectStaysLow := by
  intro s t hpos hs hstep
  cases stepEffect_of_step hstep with
  | line hseq hrun h =>
    have hspent : s.spendTurn.Stands _ _ := State.stands_of_positionOk hpos hrun
    exact hspent.selectOk_exec hs ((step_of_running hseq.1 hrun).symm.trans hstep)
  | reset => exact State.selectOk_of_empty rfl
  | reject => exact State.selectOk_of_empty rfl
  | accept hact hinbox hi =>
    have hidle : s.mode = .idle := by simpa [State.actAllowed] using hact.2.2
    have hpc : s.pc = [] := by simpa [hidle] using (s.positionOk_iff.mp hpos).2.1
    exact State.selectOk_accept hpc _
  | _ => exact hs

end Sys2Proof.Machine
end

section
/-! O13 to O17, O19: the register map, the raw accesses, and the cells and records HOST gives. -/

namespace Sys2Proof.Machine

/-! The register map (R61, R63) -/

/-- A block of 16 bytes inside the address space (R61). -/
def blockFits (base : Word) : Prop := base.toNat + 16 ≤ 2 ^ 32

theorem regAt_eq_some_iff (base a : Word) (r : Reg) : regAt base a = some r ↔ a = base + r.offset := by
  constructor
  · intro h
    unfold regAt at h
    repeat' split at h
    all_goals cases h
    all_goals simpa [Reg.offset]
  · rintro rfl
    cases r <;> simp [regAt, Reg.offset]

/-- A register's address lies in its block (R61). -/
theorem toNat_add_offset {base : Word} (h : blockFits base) (r : Reg) :
    (base + r.offset).toNat = base.toNat + r.offset.toNat ∧ r.offset.toNat < 16 ∧ r.offset.toNat % 4 = 0 := by
  unfold blockFits at h
  cases r <;> simp [Reg.offset, BitVec.toNat_add] <;> omega

theorem basesApart_cons {b : Word} {bs : List Word} : basesApart (b :: bs) = true ↔
    (∀ b' ∈ bs, b.toNat + 16 ≤ b'.toNat ∨ b'.toNat + 16 ≤ b.toNat) ∧ basesApart bs = true := by
  simp [basesApart]

/-- Blocks that stand apart share no register address (R61). -/
theorem regAt_of_apart {b b' a : Word} {r : Reg} (hb : blockFits b) (hb' : blockFits b')
    (hapart : b.toNat + 16 ≤ b'.toNat ∨ b'.toNat + 16 ≤ b.toNat) (hr : regAt b a = some r) : regAt b' a = none := by
  cases hr' : regAt b' a with
  | none => rfl
  | some r' =>
    have ha := (regAt_eq_some_iff b a r).mp hr
    have ha' := (regAt_eq_some_iff b' a r').mp hr'
    obtain ⟨hsum, hlt, -⟩ := toNat_add_offset hb r
    obtain ⟨hsum', hlt', -⟩ := toNat_add_offset hb' r'
    rw [← ha] at hsum
    rw [← ha'] at hsum'
    omega

theorem locateFrom_eq_some_iff {a : Word} {c : Nat} {r : Reg} : ∀ {bases : List Word} {n : Nat},
    (∀ b ∈ bases, blockFits b) → basesApart bases = true →
    (locateFrom a n bases = some (c, r) ↔ ∃ k base, c = n + k ∧ bases[k]? = some base ∧ regAt base a = some r)
  | [], n, _, _ => by simp [locateFrom]
  | b :: bs, n, hfit, hapart => by
    obtain ⟨hb, hbs⟩ := basesApart_cons.mp hapart
    have hfit' : ∀ b' ∈ bs, blockFits b' := fun b' hb' => hfit b' (by simp [hb'])
    have ih := locateFrom_eq_some_iff (a := a) (c := c) (r := r) (n := n + 1) hfit' hbs
    cases hr : regAt b a with
    | none =>
      simp only [locateFrom, hr, ih]
      constructor
      · rintro ⟨k, base, rfl, hget, ha⟩
        exact ⟨k + 1, base, by omega, hget, ha⟩
      · rintro ⟨k, base, rfl, hget, ha⟩
        cases k with
        | zero =>
          cases hget
          cases hr.symm.trans ha
        | succ k => exact ⟨k, base, by omega, hget, ha⟩
    | some r' =>
      have hothers : ∀ b' ∈ bs, regAt b' a = none := fun b' hb' =>
        regAt_of_apart (hfit b (by simp)) (hfit' b' hb') (hb b' hb') hr
      simp only [locateFrom, hr]
      constructor
      · intro h
        cases h
        exact ⟨0, b, rfl, rfl, hr⟩
      · rintro ⟨k, base, rfl, hget, ha⟩
        cases k with
        | zero =>
          cases hget
          cases hr.symm.trans ha
          rfl
        | succ k => exact nomatch (hothers base (List.mem_of_getElem? hget)).symm.trans ha

theorem Params.legal_bases {p : Params} (h : p.legal = true) :
    (∀ b ∈ p.bases, b.toNat % 4 = 0 ∧ blockFits b) ∧ basesApart p.bases = true := by
  simp only [Params.legal, Bool.and_eq_true, List.all_eq_true, beq_iff_eq, decide_eq_true_eq] at h
  obtain ⟨⟨⟨⟨-, hfit⟩, hapart⟩, -⟩, -⟩ := h
  exact ⟨hfit, hapart⟩

/-- Settles O13: blocks that stand apart share no address, and within a block the offsets tell the registers apart. -/
theorem registerMapIsExact : Obligations.RegisterMapIsExact := by
  intro p hlegal a c r
  obtain ⟨hfit, hapart⟩ := Params.legal_bases hlegal
  have hmap := locateFrom_eq_some_iff (a := a) (c := c) (r := r) (n := 0) (fun b hb => (hfit b hb).2) hapart
  simp only [Nat.zero_add, regAt_eq_some_iff] at hmap
  rw [locate, hmap]
  constructor
  · rintro ⟨k, base, rfl, hget, ha⟩
    exact ⟨base, hget, ha⟩
  · rintro ⟨base, hget, ha⟩
    exact ⟨c, base, rfl, hget, ha⟩

theorem rawAligned_register {p : Params} (hlegal : p.legal = true) {c : Nat} {base : Word}
    (hbase : p.bases[c]? = some base) (r : Reg) : rawAligned (base + r.offset) = true := by
  obtain ⟨halign, hfit⟩ := (Params.legal_bases hlegal).1 base (List.mem_of_getElem? hbase)
  obtain ⟨hsum, -, hoff⟩ := toNat_add_offset hfit r
  simp only [rawAligned, beq_iff_eq]
  omega

/-! Lines of the raw accesses (R143, R144) -/

/-- What a line's return leaves: the caller's next line or IDLE, and nothing else changed (R39, R160). -/
theorem State.ret_returnedTo {s : State} {f : Frame} {rest : List Frame} (hrun : s.running f rest) :
    s.ret.returnedTo rest ∧ s.ret = { s with mode := s.ret.mode, pc := s.ret.pc } := by
  obtain ⟨hmode, hpc⟩ := hrun
  cases rest with
  | nil =>
    rw [s.ret_to_idle f hpc]
    exact ⟨⟨rfl, rfl⟩, rfl⟩
  | cons g gs =>
    rw [s.ret_to_caller f g gs hpc]
    exact ⟨⟨hmode, rfl⟩, rfl⟩

section Raw

variable {s : State} {f : Frame} {rest : List Frame} (hrun : s.running f rest)

include hrun

theorem exec_spiRegRead_access (a : Word) (hl : f.line = 1) :
    exec (.spiRegRead a) s = memRead a s (fun v s' => .next { s'.setTop f.next with result := v }) := by
  rw [exec, execSpiRegRead, operation_of_running hrun]
  simp only [hl]

theorem exec_spiRegRead_return (a : Word) (hl : f.line = 2) : exec (.spiRegRead a) s = .next s.ret := by
  rw [exec, execSpiRegRead, operation_of_running hrun]
  simp only [hl]

theorem exec_spiRegWrite_access (a v : Word) (hl : f.line = 1) :
    exec (.spiRegWrite a v) s = memWrite a v s (fun s' => .next (s'.setTop f.next)) := by
  rw [exec, execSpiRegWrite, operation_of_running hrun]
  simp only [hl]

theorem exec_spiRegWrite_return (a v : Word) (hl : f.line = 2) : exec (.spiRegWrite a v) s = .next s.ret := by
  rw [exec, execSpiRegWrite, operation_of_running hrun]
  simp only [hl]

end Raw

/-- A raw access at a register's address is an access of that register (R63). -/
theorem memRead_register {s : State} {c : Nat} {base : Word} (hlegal : s.params.legal = true)
    (hbase : s.params.bases[c]? = some base) (r : Reg) (k : Word → State → Result) :
    memRead (base + r.offset) s k = regRead c r s (fun v s' => k v.toWord s') := by
  have hloc : locate s.params (base + r.offset) = some (c, r) :=
    (registerMapIsExact _ hlegal _ _ _).mpr ⟨base, hbase, rfl⟩
  simp only [memRead, rawAligned_register hlegal hbase r, hloc]
  rfl

theorem memWrite_register {s : State} {c : Nat} {base : Word} (hlegal : s.params.legal = true)
    (hbase : s.params.bases[c]? = some base) (r : Reg) (v : Word) (k : State → Result) :
    memWrite (base + r.offset) v s k = regWrite c r v.lowHalf s k := by
  have hloc : locate s.params (base + r.offset) = some (c, r) :=
    (registerMapIsExact _ hlegal _ _ _).mpr ⟨base, hbase, rfl⟩
  simp only [memWrite, rawAligned_register hlegal hbase r, hloc]
  rfl

/-! Registers read and written (R66 to R71) -/

/-- The status word, flag by flag (R68). -/
theorem Channel.statusWord_eq (ch : Channel) : ch.statusWord =
    bitHalf ch.rxne ||| (bitHalf ch.txe <<< 1) ||| (bitHalf ch.ovr <<< 6) ||| (bitHalf ch.bsy <<< 7) := by
  unfold Channel.statusWord
  generalize ch.rxne = b0, ch.txe = b1, ch.ovr = b6, ch.bsy = b7
  revert b0 b1 b6 b7
  decide

/-- A read of STATUS clears an armed OVR, and the arming (R68). -/
theorem Channel.afterStatusRead_eq (ch : Channel) :
    ch.afterStatusRead = { ch with ovr := ch.ovr && !ch.ovrArm, ovrArm := false } := by
  cases ch with
  | mk ctrl1 ctrl2 rxne txe ovr bsy txbuf rxbuf shift shiftActive ovrArm =>
    cases ovrArm <;> simp [Channel.afterStatusRead]

/-- Settles O14: the register's value and side effect, register by register; and the return. -/
theorem rawReadOfRegister : Obligations.RawReadOfRegister := by
  intro s f rest a hrun hop
  refine ⟨?_, fun hl => ⟨s.ret, exec_spiRegRead_return hrun a hl, State.ret_returnedTo hrun⟩⟩
  rintro c ch r base hl hlegal hbase rfl hch
  rw [exec_spiRegRead_access hrun _ hl, memRead_register hlegal hbase, regRead_of_chan hch]
  simp only [State.setTop, State.setChan, Frame.next, Frame.goto, hl, hrun.2, List.tail_cons]
  cases r with
  | status => simp only [Channel.readValue, Channel.afterRead, Channel.statusWord_eq, Channel.afterStatusRead_eq]; rfl
  | _ => rfl

/-- The one register write that is refused: of DATA while TXE = 0 (R66, U5). -/
theorem regWrite_full {s : State} {c : Nat} {ch : Channel} (hch : s.chans[c]? = some ch) (htxe : ch.txe = false)
    (v : Half) (k : State → Result) : regWrite c .data v s k = .refused .dataWriteFull := by
  simp [regWrite, hch, Channel.afterWrite, htxe]

theorem Channel.afterWrite_data {ch : Channel} (htxe : ch.txe = true) (v : Half) :
    ch.afterWrite .data v = some { ch with txbuf := v, txe := false } := by
  simp [Channel.afterWrite, htxe, Channel.afterDataWrite]

/-- Settles O15: a write of DATA while TXE = 0 is refused, every other write stores its word; and the return. -/
theorem rawWriteOfRegister : Obligations.RawWriteOfRegister := by
  intro s f rest a v hrun hop
  refine ⟨?_, fun hl => ⟨s.ret, exec_spiRegWrite_return hrun a v hl, State.ret_returnedTo hrun⟩⟩
  rintro c ch r base hl hlegal hbase rfl hch
  rw [exec_spiRegWrite_access hrun _ _ hl, memWrite_register hlegal hbase]
  have hstored : ∀ ch', ch.afterWrite r v.lowHalf = some ch' →
      regWrite c r v.lowHalf s (fun s' => .next (s'.setTop f.next))
        = .next { s with pc := { f with line := 2, sub := 0 } :: rest, chans := s.chans.set c ch' } := by
    intro ch' hw
    rw [regWrite_of_chan hch hw]
    simp only [State.setTop, State.setChan, Frame.next, Frame.goto, hl, hrun.2, List.tail_cons]
  by_cases hfull : r = .data ∧ ch.txe = false
  · obtain ⟨rfl, htxe⟩ := hfull
    rw [if_pos ⟨rfl, htxe⟩]
    exact regWrite_full hch htxe _ _
  · rw [if_neg hfull]
    cases r with
    | data =>
      have htxe : ch.txe = true := by simpa using hfull
      exact hstored _ (Channel.afterWrite_data htxe _)
    | _ => exact hstored _ rfl

/-- A control register just written reads as the word written (R70, R71). -/
theorem Channel.readValue_afterWrite {ch ch' : Channel} {r : Reg} {v : Half} (hr : r = .ctrl1 ∨ r = .ctrl2)
    (hw : ch.afterWrite r v = some ch') : ch'.readValue r = v := by
  rcases hr with rfl | rfl <;> cases hw <;> rfl

/-- Settles O17: the write puts the word into the register, and the read takes it from there. -/
theorem controlRegisterRoundTrip : Obligations.ControlRegisterRoundTrip := by
  rintro s t u f g rest more a v c r base ch ch' hrun ⟨-, hl⟩ hlegal hbase hr rfl hx hrun' ⟨-, hl'⟩ hparams hch hch'
    h1 h2
  rw [exec_spiRegWrite_access hrun _ _ hl, memWrite_register hlegal hbase] at hx
  obtain ⟨old, new, hold, hw, hk⟩ := regWrite_next hx
  cases hk
  have hnew : ch = new := by
    obtain ⟨hlt, -⟩ := List.getElem?_eq_some_iff.mp hold
    simpa [hlt, eq_comm] using hch
  have hread : ch'.readValue r = v.lowHalf := by
    rw [← Channel.readValue_afterWrite hr hw, ← hnew]
    rcases hr with rfl | rfl
    · exact h1
    · exact h2
  have hparams' : u.params = s.params := hparams
  rw [exec_spiRegRead_access hrun' _ hl', memRead_register (hparams'.symm ▸ hlegal) (hparams'.symm ▸ hbase),
    regRead_of_chan hch', hread]
  exact ⟨_, rfl, rfl⟩

/-! The platform memory (U2) -/

/-- The bytes of a word put together from four (log 9). -/
theorem word_bytes (b3 b2 b1 b0 : Byte) :
    let w : BitVec (8 + 8 + (8 + 8)) := (b3 ++ b2) ++ (b1 ++ b0)
    w.extractLsb' 0 8 = b0 ∧ w.extractLsb' 8 8 = b1 ∧ w.extractLsb' 16 8 = b2 ∧ w.extractLsb' 24 8 = b3 := by
  intro w
  refine ⟨?_, ?_, ?_, ?_⟩
  · rw [BitVec.extractLsb'_append_eq_of_add_le (by omega), BitVec.extractLsb'_append_eq_of_add_le (by omega),
      BitVec.extractLsb'_eq_self]
  · rw [BitVec.extractLsb'_append_eq_of_add_le (by omega), BitVec.extractLsb'_append_eq_of_le (by omega),
      BitVec.extractLsb'_eq_self]
  · rw [BitVec.extractLsb'_append_eq_of_le (by omega), BitVec.extractLsb'_append_eq_of_add_le (by omega),
      BitVec.extractLsb'_eq_self]
  · rw [BitVec.extractLsb'_append_eq_of_le (by omega), BitVec.extractLsb'_append_eq_of_le (by omega),
      BitVec.extractLsb'_eq_self]

/-- A word of the platform memory holds its four bytes, the least significant first (log 9). -/
theorem Memory.byte_word (m : Memory) (a : Nat) : ∀ k, k < 4 → m.byte (a + k) = (m.word a).extractLsb' (8 * k) 8 := by
  obtain ⟨h0, h1, h2, h3⟩ := word_bytes (m.byte (a + 3)) (m.byte (a + 2)) (m.byte (a + 1)) (m.byte a)
  intro k hk
  match k, hk with
  | 0, _ => exact h0.symm
  | 1, _ => exact h1.symm
  | 2, _ => exact h2.symm
  | 3, _ => exact h3.symm

theorem Memory.byte_putWord_same {m : Memory} (hwf : m.wf = true) (a : Nat) (v : Word) :
    ∀ k, k < 4 → (m.putWord a v).byte (a + k) = v.extractLsb' (8 * k) 8 := by
  have h0 := Memory.wf_putByte m a (v.extractLsb' 0 8) hwf
  have h1 := Memory.wf_putByte _ (a + 1) (v.extractLsb' 8 8) h0
  have h2 := Memory.wf_putByte _ (a + 2) (v.extractLsb' 16 8) h1
  intro k hk
  unfold Memory.putWord
  match k, hk with
  | 3, _ => exact Memory.byte_putByte_same _ _ _ h2
  | 2, _ => rw [Memory.byte_putByte_other _ _ _ _ (by omega), Memory.byte_putByte_same _ _ _ h1]
  | 1, _ =>
    rw [Memory.byte_putByte_other _ _ _ _ (by omega), Memory.byte_putByte_other _ _ _ _ (by omega),
      Memory.byte_putByte_same _ _ _ h0]
  | 0, _ =>
    rw [Memory.byte_putByte_other _ _ _ _ (by omega), Memory.byte_putByte_other _ _ _ _ (by omega),
      Memory.byte_putByte_other _ _ _ _ (by omega), Nat.add_zero, Memory.byte_putByte_same _ _ _ hwf]

/-- Settles O16: the access goes to the four bytes at the address. -/
theorem rawAccessToPlatformMemory : Obligations.RawAccessToPlatformMemory := by
  intro s f rest a v hplat halign hloc hwf
  have haligned : rawAligned a = true := by simp [rawAligned, halign]
  refine ⟨fun hrun ⟨_, hl⟩ => ⟨s.mem.word a.toNat, ?_, s.mem.byte_word a.toNat⟩,
    fun hrun ⟨_, hl⟩ => ⟨s.mem.putWord a.toNat v, ?_, Memory.wf_putWord _ _ _ hwf, rfl, rfl,
      Memory.byte_putWord_same hwf _ v, fun b hb => Memory.byte_putWord_other _ v hb⟩⟩
  · rw [exec_spiRegRead_access hrun _ hl]
    simp only [memRead, haligned, hloc, hplat, State.setTop, Frame.next, Frame.goto, hl, hrun.2, List.tail_cons]
    rfl
  · rw [exec_spiRegWrite_access hrun _ _ hl]
    simp only [memWrite, haligned, hloc, hplat, State.setTop, Frame.next, Frame.goto, hl, hrun.2, List.tail_cons]
    rfl

/-! Buffers and tables (R64, R65) -/

/-- The records under a reference just written. -/
theorem Memory.records_putRecords_same (m : Memory) (ref : Word) (records : List CfgRecord) (h : m.wf = true) :
    (m.putRecords ref records).records ref = records :=
  keyRead_keyWrite_same _ _ _ _ ((keyCanonical_iff _ _).mp (m.wf_iff.mp h).2.1).1

/-- The records under another reference. -/
theorem Memory.records_putRecords_other (m : Memory) (ref ref' : Word) (records : List CfgRecord) (h : ref' ≠ ref) :
    (m.putRecords ref records).records ref' = m.records ref' :=
  keyRead_keyWrite_other _ _ _ _ _ (fun e => h (BitVec.eq_of_toNat_eq e))

/-- A buffer read, of HDR or of HOST's cells (R64). -/
theorem State.bufRead_of_ne_hdrRef {s : State} {ref : Word} (h : ref ≠ s.params.hdrRef) (k : Nat) :
    s.bufRead ref k = (s.mem.cells ref)[k]? := by
  simp [State.bufRead, h]

/-- BufRead depends on HDR, its reference and the cells under the reference alone (R64). -/
theorem State.bufRead_congr {s t : State} {ref : Word} (hparams : t.params = s.params) (hhdr : t.hdr = s.hdr)
    (hcells : t.mem.cells ref = s.mem.cells ref) (k : Nat) : t.bufRead ref k = s.bufRead ref k := by
  simp only [State.bufRead, hparams, hhdr, hcells]

/-- Settles O19: HOST's act puts the cells or the records under its reference. -/
theorem hostGivesBuffersAndTables : Obligations.HostGivesBuffersAndTables := by
  intro s ref hmode hwf
  refine ⟨fun cells rest hturn hinbox => ?_, fun records rest hturn hinbox => ?_⟩
  · have hallow : s.actAllowed (.buffer ref cells) = true := by simp [State.actAllowed, hmode]
    refine ⟨_, step_of_hostActs hturn hinbox hallow, rfl, Memory.wf_putCells _ _ _ hwf, fun hne k => ?_,
      fun ref' k hne => ?_, fun _ _ => rfl⟩
    · rw [State.bufRead_of_ne_hdrRef (by exact hne)]
      exact congrArg (·[k]?) (Memory.cells_putCells_same _ _ _ hwf)
    · refine State.bufRead_congr (s := s) ?_ ?_ ?_ k
      · rfl
      · rfl
      · exact Memory.cells_putCells_other _ _ _ _ hne
  · have hallow : s.actAllowed (.table ref records) = true := by simp [State.actAllowed, hmode]
    refine ⟨_, step_of_hostActs hturn hinbox hallow, rfl, Memory.wf_putRecords _ _ _ hwf, fun k => ?_,
      fun ref' k hne => ?_, fun _ _ => rfl⟩
    · exact congrArg (·[k]?) (Memory.records_putRecords_same _ _ _ hwf)
    · exact congrArg (·[k]?) (Memory.records_putRecords_other _ _ _ _ hne)

end Sys2Proof.Machine
end

section
/-! O30, O31, O32: the lines of SPI_TRANSFER and SPI_RECEIVE, and the cases that are refused. -/

namespace Sys2Proof.Machine

/-! The parts of a line -/

/-- A passed loop head starts the index: on a channel R206 does not leave open, or under a supplied relation (R138,
R141). -/
theorem loopHead_passes {s : State} {f : Frame} {rest : List Frame} {ch : Byte} {c : Channel}
    (hrun : s.running f rest) (hc : s.chans[ch.toNat]? = some c)
    (hopen : c.linkOpen = false ∨ s.params.linkOther = .supplied) :
    loopHead ch f s = .next { s with pc := { f.next with idx := 0#16 } :: rest } := by
  have hpass : ¬ (c.linkOpen = true ∧ s.params.linkOther = .refuse) := by
    rcases hopen with h | h <;> simp [h]
  simp only [loopHead, hc, if_neg hpass]
  rw [State.setTop_of_running hrun]

theorem loopHead_refused {s : State} {f : Frame} {ch : Byte} {c : Channel} (hc : s.chans[ch.toNat]? = some c)
    (hopen : c.linkOpen = true) (hrefuse : s.params.linkOther = .refuse) :
    loopHead ch f s = .refused .linkOther := by
  simp [loopHead, hc, hopen, hrefuse]

theorem fetchCell_of_bufRead {s : State} {f : Frame} {rest : List Frame} {buf : Word} {e : Half}
    (hrun : s.running f rest) (he : s.bufRead buf f.idx.toNat = some e) :
    fetchCell buf f s = .next { s with pc := { f.next with tmp := e } :: rest } := by
  simp only [fetchCell, he]
  rw [State.setTop_of_running hrun]

theorem fetchCell_beyond {s : State} {f : Frame} {buf : Word} (h : s.bufRead buf f.idx.toNat = none) :
    fetchCell buf f s = .refused .beyondCapacity := by
  simp only [fetchCell, h]

/-- The cells BufWrite stores are those BufRead returns (R64). -/
theorem State.bufWrite_isSome (s : State) (ref : Word) (i : Nat) (v : Half) :
    (s.bufWrite ref i v).isSome = (s.bufRead ref i).isSome := by
  unfold State.bufWrite State.bufRead
  by_cases href : ref = s.params.hdrRef
  · by_cases hi : i < 2 <;> simp [href, hi]
  · by_cases hi : i < (s.mem.cells ref).length <;> simp [href, hi]

theorem storeCell_beyond {s : State} {f : Frame} {count : Half} {buf : Word}
    (h : s.bufRead buf f.idx.toNat = none) : storeCell count buf f s = .refused .beyondCapacity := by
  have hnone : s.bufWrite buf f.idx.toNat f.tmp = none := by
    rw [← Option.not_isSome_iff_eq_none, State.bufWrite_isSome, h]
    simp
  simp only [storeCell, hnone]

/-- Cells that are not all taken away read as given, in whatever memory (R64). -/
theorem Memory.cells_putCells_of_ne_nil (m : Memory) (ref : Word) {cells : List Half} (h : cells ≠ []) :
    (m.putCells ref cells).cells ref = cells := by
  simp only [Memory.cells, Memory.putCells, keyWrite, if_neg h]
  exact keyRead_keyPut_same _ _ _ _

/-- A cell written is the one read back; every other cell, of this and of every other buffer, stays (R64). -/
theorem bufRead_of_bufWrite {s t : State} {ref : Word} {i : Nat} {v : Half} (h : s.bufWrite ref i v = some t) :
    t.bufRead ref i = some v ∧ ∀ ref' k, (ref' ≠ ref ∨ k ≠ i) → t.bufRead ref' k = s.bufRead ref' k := by
  rcases bufWrite_some h with ⟨href, hi, rfl⟩ | ⟨href, hi, rfl⟩
  · refine ⟨?_, fun ref' k hother => ?_⟩
    · simp [State.bufRead, href, hi]
    · by_cases href' : ref' = s.params.hdrRef
      · have hk : i ≠ k := (hother.resolve_left (by simp [href, href'])).symm
        simp [State.bufRead, href', Vector.getElem?_setIfInBounds_ne hk]
      · simp [State.bufRead, href']
  · have hcells : (s.mem.putCells ref ((s.mem.cells ref).set i v)).cells ref = (s.mem.cells ref).set i v :=
      Memory.cells_putCells_of_ne_nil _ _ (by rw [← List.length_pos_iff, List.length_set]; omega)
    refine ⟨?_, fun ref' k hother => ?_⟩
    · simp [State.bufRead, href, hcells, hi]
    · by_cases href' : ref' = ref
      · subst href'
        have hk : i ≠ k := (hother.resolve_left (by simp)).symm
        simp [State.bufRead, href, hcells, List.getElem?_set_ne hk]
      · simp [State.bufRead, Memory.cells_putCells_other _ _ _ _ href']

theorem bufWrite_frame {s t : State} {ref : Word} {i : Nat} {v : Half} (h : s.bufWrite ref i v = some t) :
    t = { s with mem := t.mem, hdr := t.hdr } ∧ t.mem.tables = s.mem.tables ∧ t.mem.plat = s.mem.plat := by
  rcases bufWrite_some h with ⟨-, -, rfl⟩ | ⟨-, -, rfl⟩ <;> exact ⟨rfl, rfl, rfl⟩

theorem Frame.next_of_line {f : Frame} {n : Nat} (hl : f.line = n) : f.next = { f with line := n + 1, sub := 0 } := by
  subst hl
  rfl

/-! The lines -/

section Transfer

variable {s : State} {f : Frame} {rest : List Frame} {ch : Byte} {count : Half} {buf : Word}
  (hrun : s.running f rest) (hop : f.op = .spiTransfer ch count buf)

include hrun hop

theorem exec_spiTransfer_loopHead (hl : f.line = 4) : exec f.op s = loopHead ch f s := by
  rw [hop, exec, execSpiTransfer, operation_of_running hrun]
  simp only [hl]

theorem exec_spiTransfer_cell (hl : f.line = 6) : exec f.op s = fetchCell buf f s := by
  rw [hop, exec, execSpiTransfer, operation_of_running hrun]
  simp only [hl]

theorem exec_spiTransfer_write (hl : f.line = 7) :
    exec f.op s = regWrite ch.toNat .data f.tmp s (fun s' => .next (s'.setTop (f.loop count 5 8))) := by
  rw [hop, exec, execSpiTransfer, operation_of_running hrun]
  simp only [hl]

theorem exec_spiTransfer_readData (hl : f.line = 10) :
    exec f.op s = regRead ch.toNat .data s (fun _ s' => .next (s'.setTop f.next)) := by
  rw [hop, exec, execSpiTransfer, operation_of_running hrun]
  simp only [hl]

theorem exec_spiTransfer_readStatus (hl : f.line = 11) :
    exec f.op s = regRead ch.toNat .status s (fun _ s' => .next (s'.setTop f.next)) := by
  rw [hop, exec, execSpiTransfer, operation_of_running hrun]
  simp only [hl]

theorem exec_spiTransfer_return (hl : f.line = 12) : exec f.op s = .next s.ret := by
  rw [hop, exec, execSpiTransfer, operation_of_running hrun]
  simp only [hl]

end Transfer

section Receive

variable {s : State} {f : Frame} {rest : List Frame} {ch : Byte} {count : Half} {buf : Word}
  (hrun : s.running f rest) (hop : f.op = .spiReceive ch count buf)

include hrun hop

theorem exec_spiReceive_loopHead (hl : f.line = 4) : exec f.op s = loopHead ch f s := by
  rw [hop, exec, execSpiReceive, operation_of_running hrun]
  simp only [hl]

theorem exec_spiReceive_dummy (hl : f.line = 5) :
    exec f.op s = regWrite ch.toNat .data 0x0000#16 s (fun s' => .next (s'.setTop f.next)) := by
  rw [hop, exec, execSpiReceive, operation_of_running hrun]
  simp only [hl]
  rfl

theorem exec_spiReceive_readData (hl : f.line = 7) :
    exec f.op s = regRead ch.toNat .data s (fun d s' => .next (s'.setTop { f.next with tmp := d })) := by
  rw [hop, exec, execSpiReceive, operation_of_running hrun]
  simp only [hl]

theorem exec_spiReceive_store (hl : f.line = 8) : exec f.op s = storeCell count buf f s := by
  rw [hop, exec, execSpiReceive, operation_of_running hrun]
  simp only [hl]

theorem exec_spiReceive_return (hl : f.line = 9) : exec f.op s = .next s.ret := by
  rw [hop, exec, execSpiReceive, operation_of_running hrun]
  simp only [hl]

end Receive

/-- Settles O30, line by line. -/
theorem transferLines : Obligations.TransferLines := by
  intro s f rest ch count buf c hrun hop hc
  have hput : ∀ (c' : Channel) (g : Frame), (s.setChan ch.toNat c').setTop g
      = { s with chans := s.chans.set ch.toNat c', pc := g :: rest } := fun c' g =>
    State.setTop_of_running (s := s.setChan ch.toNat c') hrun g
  refine ⟨fun hl hopen => ?_, fun e hl he => ?_, fun hl htxe => ?_, fun hl => ?_, fun hl => ?_, fun hl => ?_⟩
  · rw [exec_spiTransfer_loopHead hrun hop hl, loopHead_passes hrun hc hopen, Frame.next_of_line hl]
  · rw [exec_spiTransfer_cell hrun hop hl, fetchCell_of_bufRead hrun he, Frame.next_of_line hl]
  · rw [exec_spiTransfer_write hrun hop hl, regWrite_of_chan hc (Channel.afterWrite_data htxe _), hput]
    rfl
  · rw [exec_spiTransfer_readData hrun hop hl, regRead_of_chan hc, hput, Frame.next_of_line hl]
    rfl
  · rw [exec_spiTransfer_readStatus hrun hop hl, regRead_of_chan hc, hput, Frame.next_of_line hl, Channel.afterRead,
      Channel.afterStatusRead_eq]
  · exact ⟨s.ret, exec_spiTransfer_return hrun hop hl, State.ret_returnedTo hrun⟩

/-- Settles O31, line by line. -/
theorem receiveLines : Obligations.ReceiveLines := by
  intro s f rest ch count buf c hrun hop hc
  have hput : ∀ (c' : Channel) (g : Frame), (s.setChan ch.toNat c').setTop g
      = { s with chans := s.chans.set ch.toNat c', pc := g :: rest } := fun c' g =>
    State.setTop_of_running (s := s.setChan ch.toNat c') hrun g
  refine ⟨fun hl hopen => ?_, fun hl htxe => ?_, fun hl => ?_, fun hl hcell => ?_, fun hl => ?_⟩
  · rw [exec_spiReceive_loopHead hrun hop hl, loopHead_passes hrun hc hopen, Frame.next_of_line hl]
  · rw [exec_spiReceive_dummy hrun hop hl, regWrite_of_chan hc (Channel.afterWrite_data htxe _), hput,
      Frame.next_of_line hl]
  · rw [exec_spiReceive_readData hrun hop hl, regRead_of_chan hc, hput, Frame.next_of_line hl]
    rfl
  · obtain ⟨u, hu⟩ := Option.isSome_iff_exists.mp ((s.bufWrite_isSome buf f.idx.toNat f.tmp).trans hcell)
    obtain ⟨hcellNow, hothers⟩ := bufRead_of_bufWrite hu
    obtain ⟨hframe, htables, hplat⟩ := bufWrite_frame hu
    have hx : exec f.op s = .next (u.setTop (f.loop count 5 9)) := by
      rw [exec_spiReceive_store hrun hop hl]
      simp only [storeCell, hu]
    have hpc : u.pc.tail = rest := by
      rw [hframe, hrun.2]
      rfl
    refine ⟨_, hx, ?_, ?_, hcellNow, hothers, htables, hplat⟩
    · rw [hframe]
      rfl
    · rw [State.setTop_pc, hpc]
      rfl
  · exact ⟨s.ret, exec_spiReceive_return hrun hop hl, State.ret_returnedTo hrun⟩

/-! The refused cases (93 section 1) -/

/-- A device address above 0x3F is not usable (R111, R161). -/
theorem deviceAddressOk_of_gt {addr : Byte} (h : 0x3F < addr.toNat) : deviceAddressOk addr = false := by
  have hgt : ¬ addr ≤ 0x3F#8 := by
    rw [BitVec.le_def]
    simpa using h
  exact decide_eq_false hgt

theorem headerLine_tooLarge {addr : Byte} (h : 0x3F < addr.toNat) (hdr : Byte) (f : Frame) (s : State) :
    headerLine addr hdr f s = .refused .addrTooLarge := by
  simp [headerLine, deviceAddressOk_of_gt h]

theorem initRecord_nullTable {f : Frame} {s : State} : initRecord 0#32 f s = .refused .nullTable := by
  simp [initRecord]

theorem initRecord_beyond {f : Frame} {s : State} {table : Word} (hne : table ≠ 0#32)
    (h : s.cfgRead table f.idx.toNat = none) : initRecord table f s = .refused .beyondTable := by
  simp [initRecord, hne, h]

section Raw

variable {s : State} {a : Word}

theorem memRead_misaligned (h : a.toNat % 4 ≠ 0) (k : Word → State → Result) :
    memRead a s k = .refused .misaligned := by
  simp [memRead, rawAligned, h]

theorem memWrite_misaligned (h : a.toNat % 4 ≠ 0) (v : Word) (k : State → Result) :
    memWrite a v s k = .refused .misaligned := by
  simp [memWrite, rawAligned, h]

variable (halign : a.toNat % 4 = 0) (hloc : locate s.params a = none) (hplat : s.params.platform = false)

include halign hloc hplat

theorem memRead_outsideMap (k : Word → State → Result) : memRead a s k = .refused .outsideMap := by
  simp [memRead, rawAligned, halign, hloc, hplat]

theorem memWrite_outsideMap (v : Word) (k : State → Result) : memWrite a v s k = .refused .outsideMap := by
  simp [memWrite, rawAligned, halign, hloc, hplat]

end Raw

/-- Settles O32, case by case at the line that needs what is missing. -/
theorem casesWithoutMeaningAreRefused : Obligations.CasesWithoutMeaningAreRefused := by
  intro s f rest hrun
  refine ⟨fun a v hop hl => ⟨fun hmis => ?_, fun halign hloc hplat => ?_⟩, ?_, ?_, ?_, ?_, ?_, ?_, ?_⟩
  · rcases hop with hop | hop <;> rw [hop]
    · rw [exec_spiRegRead_access hrun a hl, memRead_misaligned hmis]
    · rw [exec_spiRegWrite_access hrun a v hl, memWrite_misaligned hmis]
  · rcases hop with hop | hop <;> rw [hop]
    · rw [exec_spiRegRead_access hrun a hl, memRead_outsideMap halign hloc hplat]
    · rw [exec_spiRegWrite_access hrun a v hl, memWrite_outsideMap halign hloc hplat]
  · intro ch port pin addr value hop hl hlarge
    rw [hop, exec, execAccWrite, operation_of_running hrun]
    simp only [hl, headerLine_tooLarge hlarge]
  · intro ch port pin addr count buf hop hl hlarge
    rw [hop, exec, execAccRead, operation_of_running hrun]
    simp only [hl, headerLine_tooLarge hlarge]
  · intro ch count buf hop hl hcell
    rw [exec_spiTransfer_cell hrun hop hl, fetchCell_beyond hcell]
  · intro ch count buf hop hl hcell
    rw [exec_spiReceive_store hrun hop hl, storeCell_beyond hcell]
  · intro ch count buf c hop hl hc htxe
    rw [exec_spiReceive_dummy hrun hop hl, regWrite_full hc htxe]
  · intro ch count buf c hop hl hc hopen hrefuse
    rcases hop with hop | hop
    · rw [exec_spiTransfer_loopHead hrun hop hl, loopHead_refused hc hopen hrefuse]
    · rw [exec_spiReceive_loopHead hrun hop hl, loopHead_refused hc hopen hrefuse]
  · intro count table hop hl
    have hx : exec f.op s = initRecord table f s := by
      rw [hop, exec, execSpiInit, operation_of_running hrun]
      simp only [hl]
    refine ⟨fun hnull => ?_, fun hne hrec => ?_⟩
    · rw [hx, hnull, initRecord_nullTable]
    · rw [hx, initRecord_beyond hne hrec]

end Sys2Proof.Machine
end

section
/-! O48: the words given to a channel, sent and pending, step by step. -/

namespace Sys2Proof.Machine

/-! The words of the TRACE (R45, R203) -/

theorem sentOn_append_frame (n c : Nat) (trace : List Event) (tx rx : Half) :
    sentOn n (trace ++ [.frame c tx rx]) = sentOn n trace ++ (if n = c then [tx] else []) := by
  by_cases hn : n = c
  · simp [sentOn, framesOn, hn]
  · simp [sentOn, framesOn, hn, Ne.symm hn]

/-! The words pending in a channel (R192, R193, R203) -/

/-- LINK_START moves the word that waits into the shifter (R192). -/
theorem Channel.pending_started {ch : Channel} (h : ch.startEnabled = true) : ch.started.pending = ch.pending := by
  simp only [Channel.startEnabled, Bool.and_eq_true, Bool.not_eq_true'] at h
  obtain ⟨⟨-, htxe⟩, hshift⟩ := h
  simp only [Channel.pending, htxe, hshift]
  rfl

/-- LINK_COMPLETE sends the word in the shifter (R193). -/
theorem Channel.pending_completed {ch : Channel} (h : ch.completeEnabled = true) (rx : Half) :
    [ch.shift &&& ch.mask] ++ (ch.completed rx).pending = ch.pending := by
  obtain ⟨-, hshift⟩ := Bool.and_eq_true_iff.mp h
  simp only [Channel.pending, hshift]
  rfl

/-- A write of DATA puts its word behind those that are pending (R66). -/
theorem Channel.pending_dataWrite {ch : Channel} (htxe : ch.txe = true) (v : Half) :
    (ch.afterDataWrite v).pending = ch.pending ++ [v &&& ch.mask] := by
  simp only [Channel.pending, htxe, if_pos, List.append_nil]
  rfl

/-! The words given to a channel -/

/-- A step that puts channel `c` back with `sent` more words on the wire and `more` new words behind those pending. -/
theorem State.wordsGiven_of_set {s t : State} {c n : Nat} {ch ch' : Channel} {sent more : List Half}
    (hch : s.chans[c]? = some ch) (hchans : t.chans = s.chans.set c ch')
    (htrace : sentOn n t.trace = sentOn n s.trace ++ (if n = c then sent else []))
    (hpending : sent ++ ch'.pending = ch.pending ++ more) :
    t.wordsGiven n = s.wordsGiven n ++ (if n = c then more else []) := by
  by_cases hn : n = c
  · subst hn
    obtain ⟨hlt, -⟩ := List.getElem?_eq_some_iff.mp hch
    have hget : t.chans[n]? = some ch' := by simp [hchans, hlt]
    rw [if_pos rfl] at htrace ⊢
    simp only [State.wordsGiven, htrace, hget, hch, List.append_assoc, hpending]
  · have hget : t.chans[n]? = s.chans[n]? := by rw [hchans, List.getElem?_set_ne (Ne.symm hn)]
    rw [if_neg hn, List.append_nil] at htrace ⊢
    simp only [State.wordsGiven, htrace, hget]

/-- A completed frame's word was pending: LINK_COMPLETE conserves the words given (R193, R203). -/
theorem State.wordsGiven_completeFrame {s : State} {c : Nat} {ch : Channel} (hch : s.chans[c]? = some ch)
    (hen : ch.completeEnabled = true) (n : Nat) :
    (s.completeFrame c ch (ch.shift &&& ch.mask)).wordsGiven n = s.wordsGiven n := by
  have h := State.wordsGiven_of_set (s := s) (t := s.completeFrame c ch (ch.shift &&& ch.mask)) (n := n) (more := [])
    hch rfl (sentOn_append_frame n c s.trace _ _) ((Channel.pending_completed hen _).trans (List.append_nil _).symm)
  simpa using h

/-- A header form encodes to the byte it was read from (R110). -/
theorem encode_decodeHeader : ∀ b : Byte, encode (decodeHeader b) = .header b := by
  decide

/-- The byte of an 8-bit frame is its masked word (R193). -/
theorem Channel.lowByte_eq_masked {ch : Channel} (hwide : ch.wide = false) :
    ch.shift.lowByte.toHalf = ch.shift &&& ch.mask := by
  apply BitVec.eq_of_toNat_eq
  have hmask := Nat.and_two_pow_sub_one_eq_mod ch.shift.toNat 8
  simp [Channel.mask, hwide, Half.lowByte, Byte.toHalf] at hmask ⊢
  omega

/-- With LINK_OTHER = refuse a link agent's step conserves the words given (R192, R193, R203). -/
theorem linkStep_wordsGiven {s t : State} {c : Nat} (hrefuse : s.params.linkOther = .refuse)
    (h : linkStep c s = .next t) (n : Nat) : t.wordsGiven n = s.wordsGiven n := by
  rcases linkStep_next h with rfl | ⟨ch, hch, ⟨hen, rfl⟩ | ⟨hen, hwide, -, hx⟩ | ⟨hen, rfl⟩ | ⟨-, -, e, he, -⟩⟩
  · rfl
  · have h := State.wordsGiven_of_set (s := s) (t := { s.setChan c ch.started with lnk := c }) (n := n) (sent := [])
      (more := []) hch rfl (by simp) (by simp [Channel.pending_started hen])
    simpa using h
  · obtain ⟨b, hb, hframe⟩ := exec_decodeHeader ch.shift.lowByte { s with lnk := c }
    cases hb.symm.trans (encode_decodeHeader _)
    rw [hframe, headerFrame_of_frame (s := { s with lnk := c }) _ hch hen hwide, Channel.lowByte_eq_masked hwide] at hx
    cases hx
    exact State.wordsGiven_completeFrame (s := { s with lnk := c }) hch hen n
  · exact State.wordsGiven_completeFrame hch hen n
  · exact nomatch (linkOtherEffect_refuse hrefuse c ch).symm.trans he

/-- A write of DATA gives the channel its word, masked (R66, R203). -/
theorem wordsGiven_of_dataWrite {s t : State} {c : Nat} {ch : Channel} {v : Half} {g : Frame}
    (hch : s.chans[c]? = some ch) (h : regWrite c .data v s (fun s' => .next (s'.setTop g)) = .next t) (n : Nat) :
    t.wordsGiven n = s.wordsGiven n ++ (if n = c then [v &&& ch.mask] else []) := by
  obtain ⟨ch₀, ch', hch₀, hw, hk⟩ := regWrite_next h
  cases hch.symm.trans hch₀
  cases hk
  rcases afterWrite_some hw with ⟨h, -⟩ | ⟨h, -⟩ | ⟨h, -⟩ | ⟨-, htxe, rfl⟩
  · cases h
  · cases h
  · cases h
  · exact State.wordsGiven_of_set (sent := []) hch rfl (by simp) (Channel.pending_dataWrite htxe v)

/-- Settles O48: the link agents conserve the words given, and each write of DATA adds its own. -/
theorem framesCarryTheWordsWritten : Obligations.FramesCarryTheWordsWritten := by
  refine ⟨fun s t c c' hrefuse h => linkStep_wordsGiven hrefuse h c, ?_, ?_⟩
  · intro s t f rest ch count buf c n hrun hc
    refine ⟨fun ⟨hop, hl⟩ hx => ?_, fun ⟨hop, hl⟩ hx => ?_⟩
    · rw [exec_spiTransfer_write hrun hop hl] at hx
      exact wordsGiven_of_dataWrite hc hx n
    · rw [exec_spiReceive_dummy hrun hop hl] at hx
      simpa using wordsGiven_of_dataWrite hc hx n
  · rintro s t f rest a v base k c n hrun ⟨hop, hl⟩ hlegal hbase rfl hc hx
    rw [hop, exec_spiRegWrite_access hrun _ _ hl, memWrite_register hlegal hbase] at hx
    exact wordsGiven_of_dataWrite hc hx n

end Sys2Proof.Machine
end

section
/-! O1 to O6: the decoder, the encoder and the header bytes. The fields of a word put together, and the word put together
of its fields; what decodes is spelled by its encoding; and what R114 calls illegal does not decode to a command HOST
may issue. -/

namespace Sys2Proof.Machine

/-! The fields of a descriptor word (R93 to R99) -/

@[simp] theorem byte0_wordOfBytes (b3 b2 b1 b0 : Byte) : byte0 (wordOfBytes b3 b2 b1 b0) = b0 :=
  (word_bytes b3 b2 b1 b0).1

@[simp] theorem byte1_wordOfBytes (b3 b2 b1 b0 : Byte) : byte1 (wordOfBytes b3 b2 b1 b0) = b1 :=
  (word_bytes b3 b2 b1 b0).2.1

@[simp] theorem byte2_wordOfBytes (b3 b2 b1 b0 : Byte) : byte2 (wordOfBytes b3 b2 b1 b0) = b2 :=
  (word_bytes b3 b2 b1 b0).2.2.1

@[simp] theorem byte3_wordOfBytes (b3 b2 b1 b0 : Byte) : byte3 (wordOfBytes b3 b2 b1 b0) = b3 :=
  (word_bytes b3 b2 b1 b0).2.2.2

/-- The fields of a word put together from its upper half and two bytes. -/
theorem halfWord_fields (h : Half) (b1 b0 : Byte) :
    let w : BitVec (16 + (8 + 8)) := h ++ (b1 ++ b0)
    w.extractLsb' 0 8 = b0 ∧ w.extractLsb' 8 8 = b1 ∧ w.extractLsb' 16 16 = h := by
  intro w
  refine ⟨?_, ?_, ?_⟩
  · rw [BitVec.extractLsb'_append_eq_of_add_le (by omega), BitVec.extractLsb'_append_eq_of_add_le (by omega),
      BitVec.extractLsb'_eq_self]
  · rw [BitVec.extractLsb'_append_eq_of_add_le (by omega), BitVec.extractLsb'_append_eq_of_le (by omega),
      BitVec.extractLsb'_eq_self]
  · rw [BitVec.extractLsb'_append_eq_of_le (by omega), BitVec.extractLsb'_eq_self]

@[simp] theorem byte0_wordOfHalf (h : Half) (b1 b0 : Byte) : byte0 (wordOfHalf h b1 b0) = b0 :=
  (halfWord_fields h b1 b0).1

@[simp] theorem byte1_wordOfHalf (h : Half) (b1 b0 : Byte) : byte1 (wordOfHalf h b1 b0) = b1 :=
  (halfWord_fields h b1 b0).2.1

@[simp] theorem upperHalf_wordOfHalf (h : Half) (b1 b0 : Byte) : upperHalf (wordOfHalf h b1 b0) = h :=
  (halfWord_fields h b1 b0).2.2

/-- A word is what its four bytes say. -/
theorem word_eq_of_bytes {v w : Word} (h0 : byte0 v = byte0 w) (h1 : byte1 v = byte1 w) (h2 : byte2 v = byte2 w)
    (h3 : byte3 v = byte3 w) : v = w := by
  apply BitVec.eq_of_toNat_eq
  simp only [byte0, byte1, byte2, byte3, BitVec.toNat_eq, BitVec.extractLsb'_toNat, Nat.shiftRight_eq_div_pow]
    at h0 h1 h2 h3
  omega

/-- A word is what its upper half and its two lower bytes say. -/
theorem word_eq_of_half {v w : Word} (h0 : byte0 v = byte0 w) (h1 : byte1 v = byte1 w)
    (h2 : upperHalf v = upperHalf w) : v = w := by
  apply BitVec.eq_of_toNat_eq
  simp only [byte0, byte1, upperHalf, BitVec.toNat_eq, BitVec.extractLsb'_toNat, Nat.shiftRight_eq_div_pow]
    at h0 h1 h2
  omega

/-- A word is what its lowest byte and the rest say. -/
theorem word_eq_of_upper24 {v w : Word} (h0 : byte0 v = byte0 w) (h1 : upper24 v = upper24 w) : v = w := by
  apply BitVec.eq_of_toNat_eq
  simp only [byte0, upper24, BitVec.toNat_eq, BitVec.extractLsb'_toNat, Nat.shiftRight_eq_div_pow] at h0 h1
  omega

theorem wordOfBytes_fields {w : Word} {b1 b0 : Byte} (h1 : byte1 w = b1) (h0 : byte0 w = b0) :
    wordOfBytes (byte3 w) (byte2 w) b1 b0 = w :=
  word_eq_of_bytes (by simp [h0]) (by simp [h1]) (by simp) (by simp)

theorem wordOfHalf_fields {w : Word} {h : Half} {b1 b0 : Byte} (h2 : upperHalf w = h) (h1 : byte1 w = b1)
    (h0 : byte0 w = b0) : wordOfHalf h b1 b0 = w :=
  word_eq_of_half (by simp [h0]) (by simp [h1]) (by simp [h2])

/-- The first words of the raw accesses hold their opcode and nothing else (R95, R96). -/
theorem rawWord_fields : byte0 0x00000004#32 = 0x04#8 ∧ upper24 0x00000004#32 = 0#24
    ∧ byte0 0x00000005#32 = 0x05#8 ∧ upper24 0x00000005#32 = 0#24 := by
  decide

/-! The header bytes (R110) -/

theorem decodeHeader_headerByte : ∀ (r mb : Bool) (a : BitVec 6), decodeHeader (headerByte r mb a)
    = match r, mb with
      | false, true => .wireWriteMb a
      | true, true => .wireReadMb a
      | false, false => .wireWriteSb a
      | true, false => .wireReadSb a := by
  decide

/-- Settles O1, constructor by constructor: the decoder reads the fields the encoder put together. -/
theorem decodeEncodeAllInstructions : Obligations.DecodeEncodeAllInstructions := by
  intro i
  cases i with
  | wireWriteMb a => exact congrArg Except.ok (decodeHeader_headerByte false true a)
  | wireReadMb a => exact congrArg Except.ok (decodeHeader_headerByte true true a)
  | wireWriteSb a => exact congrArg Except.ok (decodeHeader_headerByte false false a)
  | wireReadSb a => exact congrArg Except.ok (decodeHeader_headerByte true false a)
  | spiRegWrite addr value | spiRegRead addr =>
    simp [encode, decodeCode, Descriptor.ofWords, decode, rawWord_fields]
  | _ => simp [encode, decodeCode, Descriptor.ofWords, decode]

/-! What decodes is spelled by its encoding (R91 to R99) -/

/-- If the answer is an instruction, the descriptor's own words, as many as its opcode says, are its encoding. -/
def spelledBy (d : Descriptor) (r : Except Reject Instr) : Prop :=
  ∀ i, r = .ok i → ∃ ws, encode i = .words ws ∧ descriptorLength (byte0 d.word0) = some ws.length
    ∧ ws = [d.word0, d.word1, d.word2].take ws.length

theorem spelledBy_error (d : Descriptor) (e : Reject) : spelledBy d (.error e) := nofun

theorem spelledBy_ite {d : Descriptor} {c : Prop} [Decidable c] {a b : Except Reject Instr} (ha : c → spelledBy d a)
    (hb : ¬ c → spelledBy d b) : spelledBy d (if c then a else b) := by
  split
  · exact ha ‹_›
  · exact hb ‹_›

theorem spelledBy_ok {d : Descriptor} {i : Instr} {ws : List Word} {opc : Byte} (hopc : byte0 d.word0 = opc)
    (hi : encode i = .words ws) (hlen : descriptorLength opc = some ws.length)
    (hws : ws = [d.word0, d.word1, d.word2].take ws.length) : spelledBy d (.ok i) := by
  rintro _ ⟨⟩
  exact ⟨ws, hi, hopc ▸ hlen, hws⟩

theorem spelledBy_decode (d : Descriptor) : spelledBy d (decode d) := by
  unfold decode
  dsimp only
  refine spelledBy_ite (fun hopc => spelledBy_ite (fun hres => ?_) fun _ => spelledBy_error d _) fun _ => ?_
  · exact spelledBy_ok hopc rfl rfl (by rw [wordOfHalf_fields rfl hres hopc]; rfl)
  refine spelledBy_ite (fun hopc => ?_) fun _ => ?_
  · exact spelledBy_ok hopc rfl rfl (by rw [wordOfHalf_fields rfl rfl hopc]; rfl)
  refine spelledBy_ite (fun hopc => ?_) fun _ => ?_
  · exact spelledBy_ok hopc rfl rfl (by rw [wordOfHalf_fields rfl rfl hopc]; rfl)
  refine spelledBy_ite (fun hopc => spelledBy_ite (fun hres => ?_) fun _ => spelledBy_error d _) fun _ => ?_
  · have hword : d.word0 = 0x00000004#32 := word_eq_of_upper24 hopc hres
    exact spelledBy_ok hopc rfl rfl (by rw [hword]; rfl)
  refine spelledBy_ite (fun hopc => spelledBy_ite (fun hres => ?_) fun _ => spelledBy_error d _) fun _ => ?_
  · have hword : d.word0 = 0x00000005#32 := word_eq_of_upper24 hopc hres
    exact spelledBy_ok hopc rfl rfl (by rw [hword]; rfl)
  refine spelledBy_ite (fun hopc => ?_) fun _ => ?_
  · exact spelledBy_ok hopc rfl rfl (by rw [wordOfBytes_fields rfl hopc]; rfl)
  refine spelledBy_ite (fun hopc => spelledBy_ite (fun hres => ?_) fun _ => spelledBy_error d _) fun _ => ?_
  · exact spelledBy_ok hopc rfl rfl (by rw [wordOfBytes_fields rfl hopc, wordOfHalf_fields hres rfl rfl]; rfl)
  refine spelledBy_ite (fun hopc => spelledBy_ite (fun hres => ?_) fun _ => spelledBy_error d _) fun _ => ?_
  · exact spelledBy_ok hopc rfl rfl (by rw [wordOfBytes_fields rfl hopc, wordOfHalf_fields rfl hres rfl]; rfl)
  refine spelledBy_ite (fun hopc => spelledBy_ite (fun hres => ?_) fun _ => spelledBy_error d _) fun _ => ?_
  · exact spelledBy_ok hopc rfl rfl (by rw [wordOfBytes_fields hres hopc]; rfl)
  refine spelledBy_ite (fun hopc => spelledBy_ite (fun hres => ?_) fun _ => spelledBy_error d _)
    fun _ => spelledBy_error d _
  exact spelledBy_ok hopc rfl rfl (by rw [wordOfBytes_fields hres hopc]; rfl)

/-- Settles O2: `spelledBy_decode` for descriptors, `encode_decodeHeader` for header bytes. -/
theorem decodedCodeIsItsEncoding : Obligations.DecodedCodeIsItsEncoding :=
  ⟨fun d i h => spelledBy_decode d i h, encode_decodeHeader⟩

/-! The length of a descriptor (R91, R92) -/

theorem descriptorLength_table : ∀ opc : Byte, descriptorLength opc =
    if opc.toNat ∈ [0x10, 0x13, 0x14] then some 1
    else if opc.toNat ∈ [0x01, 0x02, 0x03, 0x05, 0x11] then some 2
    else if opc.toNat ∈ [0x04, 0x12] then some 3
    else none := by
  decide

/-- A descriptor of one word decodes whatever stands after it. -/
theorem decode_of_length_one {w0 : Word} (h : descriptorLength (byte0 w0) = some 1) (w1 w2 v1 v2 : Word) :
    decode ⟨w0, w1, w2⟩ = decode ⟨w0, v1, v2⟩ := by
  have hopc : byte0 w0 = 0x10#8 ∨ byte0 w0 = 0x13#8 ∨ byte0 w0 = 0x14#8 := by
    generalize byte0 w0 = opc at h
    revert opc
    decide
  rcases hopc with hopc | hopc | hopc <;> simp [decode, hopc]

/-- A descriptor of two words decodes whatever stands after them. -/
theorem decode_of_length_two {w0 : Word} (h : descriptorLength (byte0 w0) = some 2) (w1 w2 v2 : Word) :
    decode ⟨w0, w1, w2⟩ = decode ⟨w0, w1, v2⟩ := by
  have hopc : byte0 w0 = 0x01#8 ∨ byte0 w0 = 0x02#8 ∨ byte0 w0 = 0x03#8 ∨ byte0 w0 = 0x05#8
      ∨ byte0 w0 = 0x11#8 := by
    generalize byte0 w0 = opc at h
    revert opc
    decide
  rcases hopc with hopc | hopc | hopc | hopc | hopc <;> simp [decode, hopc]

theorem descriptorLength_cases : ∀ (opc : Byte) (n : Nat), descriptorLength opc = some n → n = 1 ∨ n = 2 ∨ n = 3 := by
  intro opc n h
  rw [descriptorLength_table] at h
  split at h
  · cases h; exact .inl rfl
  split at h
  · cases h; exact .inr (.inl rfl)
  split at h
  · cases h; exact .inr (.inr rfl)
  · cases h

/-- Settles O3: the table, and by the length the words that are left out. -/
theorem decoderTakesLengthByOpcode : Obligations.DecoderTakesLengthByOpcode := by
  refine ⟨descriptorLength_table, ?_⟩
  rintro ⟨d0, d1, d2⟩ ⟨e0, e1, e2⟩ n hlen heq
  rcases descriptorLength_cases _ n hlen with rfl | rfl | rfl
  · obtain rfl : d0 = e0 := by simpa using heq
    exact decode_of_length_one hlen d1 d2 e1 e2
  · obtain ⟨rfl, rfl⟩ : d0 = e0 ∧ d1 = e1 := by simpa using heq
    exact decode_of_length_two hlen d1 d2 e2
  · obtain ⟨rfl, rfl, rfl⟩ : d0 = e0 ∧ d1 = e1 ∧ d2 = e2 := by simpa using heq
    rfl

/-! Illegal descriptors (R114) -/

/-- A field that is 0 is 0 under any mask that covers no bit outside it. -/
theorem and_eq_zero_of_extractLsb' {w m : Word} {lo n : Nat}
    (hm : ∀ i < 32, m.getLsbD i = true → lo ≤ i ∧ i < lo + n) (h : w.extractLsb' lo n = 0#n) : w &&& m = 0#32 := by
  apply BitVec.eq_of_getLsbD_eq
  intro i hi
  by_cases hmi : m.getLsbD i = true
  · obtain ⟨hlo, hhi⟩ := hm i hi hmi
    have hbit := congrArg (·.getLsbD (i - lo)) h
    have hplace : lo + (i - lo) = i := by omega
    have hin : i - lo < n := by omega
    have hwi : w.getLsbD i = false := by simpa [hplace, hin] using hbit
    simp [hwi]
  · simp [hmi]

theorem mask_of_byte1 {w : Word} (h : byte1 w = 0#8) : w &&& 0x0000FF00#32 = 0#32 :=
  and_eq_zero_of_extractLsb' (lo := 8) (n := 8) (by decide) h

theorem mask_of_upper24 {w : Word} (h : upper24 w = 0#24) : w &&& 0xFFFFFF00#32 = 0#32 :=
  and_eq_zero_of_extractLsb' (lo := 8) (n := 24) (by decide) h

/-- What R114 leaves a descriptor is legal: an opcode HOST may issue, and 0 in the reserved fields of its format. -/
theorem legal_of_fields {d : Descriptor} {opc : Byte} (hopc : byte0 d.word0 = opc)
    (hmap : opc ∈ [0x01#8, 0x02#8, 0x03#8, 0x04#8, 0x05#8, 0x10#8, 0x12#8])
    (hinit : opc = 0x01#8 → byte1 d.word0 = 0#8) (hraw : opc = 0x04#8 ∨ opc = 0x05#8 → upper24 d.word0 = 0#24)
    (hread : opc = 0x12#8 → byte1 d.word1 = 0#8) : illegalDescriptor d = false := by
  simp only [illegalDescriptor, toNat_and_lowByte, hopc]
  simp only [List.mem_cons, List.not_mem_nil, or_false] at hmap
  rcases hmap with rfl | rfl | rfl | rfl | rfl | rfl | rfl
  · simp [mask_of_byte1 (hinit rfl)]
  · rfl
  · rfl
  · simp [mask_of_upper24 (hraw (.inl rfl))]
  · simp [mask_of_upper24 (hraw (.inr rfl))]
  · rfl
  · simp [mask_of_byte1 (hread rfl)]

/-- The encoding of a command HOST may issue is legal (R114). -/
theorem legal_of_encode {d : Descriptor} {i : Instr} {ws : List Word} (hi : encode i = .words ws)
    (hws : ws = [d.word0, d.word1, d.word2].take ws.length) (hissue : i.issuable = true) :
    illegalDescriptor d = false := by
  cases i with
  | accWrite ch port pin addr value | csAssert port pin | csDeassert port pin | wireWriteMb a | wireReadMb a
  | wireWriteSb a | wireReadSb a => cases hissue
  | spiInit count table =>
    cases hi
    injection hws with h0 _
    exact legal_of_fields (opc := 0x01#8) (by simp [← h0]) (by simp) (by simp [← h0]) nofun nofun
  | spiTransfer ch count buf =>
    cases hi
    injection hws with h0 _
    exact legal_of_fields (opc := 0x02#8) (by simp [← h0]) (by simp) nofun nofun nofun
  | spiReceive ch count buf =>
    cases hi
    injection hws with h0 _
    exact legal_of_fields (opc := 0x03#8) (by simp [← h0]) (by simp) nofun nofun nofun
  | spiRegWrite addr value =>
    cases hi
    injection hws with h0 _
    exact legal_of_fields (opc := 0x04#8) (by rw [← h0]; rfl) (by simp) nofun (fun _ => by rw [← h0]; rfl) nofun
  | spiRegRead addr =>
    cases hi
    injection hws with h0 _
    exact legal_of_fields (opc := 0x05#8) (by rw [← h0]; rfl) (by simp) nofun (fun _ => by rw [← h0]; rfl) nofun
  | accInit ch port pin =>
    cases hi
    injection hws with h0 _
    exact legal_of_fields (opc := 0x10#8) (by simp [← h0]) (by simp) nofun nofun nofun
  | accRead ch port pin addr count buf =>
    cases hi
    injection hws with h0 hws
    injection hws with h1 _
    exact legal_of_fields (opc := 0x12#8) (by simp [← h0]) (by simp) nofun nofun (fun _ => by simp [← h1])

theorem word0_ofWords_cons (w : Word) : ∀ ws : List Word, (Descriptor.ofWords (w :: ws)).word0 = w
  | [] => rfl
  | [_] => rfl
  | _ :: _ :: _ => rfl

/-- The operation a descriptor decodes to has the descriptor's `word0` (R91, R212). -/
theorem word0_of_decode {d : Descriptor} {i : Instr} (h : decode d = .ok i) : i.word0 = d.word0 := by
  obtain ⟨ws, hi, hlen, hws⟩ := spelledBy_decode d i h
  simp only [Instr.word0, hi]
  cases ws with
  | nil => simpa using descriptorLength_cases _ _ hlen
  | cons w ws =>
    injection hws with h0 _
    rw [word0_ofWords_cons, h0]

/-- Settles O6: an illegal descriptor does not decode, or decodes to an internal operation, which the port refuses. -/
theorem illegalCommandRaises : Obligations.IllegalCommandRaises := by
  intro d s hidle hillegal
  unfold issue
  split
  · rename_i i hd
    obtain ⟨ws, hi, -, hws⟩ := spelledBy_decode d i hd
    have hinternal : i.issuable = false := by
      by_contra hissue
      simp [legal_of_encode hi hws (by simpa using hissue)] at hillegal
    rw [exec_of_idle hidle (onlyCommand_decode d i hd), hinternal, word0_of_decode hd]
    rfl
  · rfl

/-! The header forms of the block (R111) -/

/-- A usable address and its modifiers make the header byte of the address (R110, R111). -/
theorem headers_of_address : ∀ a : Byte, a.toNat ≤ 0x3F →
    writeHeader a = headerByte false true (a.setWidth 6) ∧ readHeader a = headerByte true true (a.setWidth 6) := by
  decide

theorem toNat_headers_of_address : ∀ a : Byte, a.toNat ≤ 0x3F →
    (writeHeader a).toNat = a.toNat + 0x40 ∧ (readHeader a).toNat = a.toNat + 0xC0 := by
  decide

theorem readHeader_eq (a : Byte) : readHeader a = a ||| 0xC0#8 := BitVec.or_assoc a 0x80#8 0x40#8

/-- Settles O4: the two headers are header bytes of the address, which the wire reads back. -/
theorem headerCarriesAddress : Obligations.HeaderCarriesAddress := by
  intro a ha
  obtain ⟨hwrite, hread⟩ := headers_of_address a ha
  obtain ⟨hwriteNat, hreadNat⟩ := toNat_headers_of_address a ha
  refine ⟨rfl, readHeader_eq a, hwriteNat, hreadNat, ?_, ?_⟩
  · rw [hwrite, decodeHeader_headerByte]
  · rw [hread, decodeHeader_headerByte]

/-- Settles O5: each descriptor and each byte is decoded. -/
theorem sampleWordsDecode : Obligations.SampleWordsDecode := by
  unfold Obligations.SampleWordsDecode
  decide

end Sys2Proof.Machine
end

section
/-! O49: a header byte on the wire. -/

namespace Sys2Proof.Machine

/-! A frame on the wire (R193, R199) -/

@[simp] theorem lowByte_toHalf (b : Byte) : b.toHalf.lowByte = b := by
  simp only [Half.lowByte, Byte.toHalf]
  exact BitVec.setWidth_setWidth_of_le b (by decide)

/-- The word of a header byte's frame (R110). -/
theorem headerByte_toHalf : ∀ (r mb : Bool) (a : BitVec 6), (headerByte r mb a).toHalf
    = (if r then 0x80#16 else 0x00#16) ||| (if mb then 0x40#16 else 0x00#16) ||| a.setWidth 16 := by
  decide

/-- The two modifiers and the address of a header byte, as the reference slave reads them (R110, R199). -/
theorem headerByte_fields : ∀ (r mb : Bool) (a : BitVec 6), (headerByte r mb a).extractLsb' 0 6 = a
    ∧ (headerByte r mb a).getLsbD 6 = mb ∧ (headerByte r mb a).getLsbD 7 = r := by
  decide

/-- A header sets the pointer, the multi-byte flag and the phase of a slave that waits for one, and no register
(R199). -/
theorem RefSlave.frame8_header {r : RefSlave} (h : r.phase = .header) (read mb : Bool) (a : BitVec 6) :
    r.frame8 (headerByte read mb a) = ⟨r.reg, a, if read then .read else .write, mb⟩ := by
  obtain ⟨haddr, hmb, hread⟩ := headerByte_fields read mb a
  simp only [RefSlave.frame8, h, haddr, hmb, hread]

theorem Device.hearFrame_unselected {s : State} {c : Nat} {d : Device} (h : s.selected c d = false) (wide : Bool)
    (tx : Half) : d.hearFrame s c wide tx = d := by
  simp [Device.hearFrame, h]

theorem Device.hearFrame_selected {s : State} {c : Nat} {d : Device} (h : s.selected c d = true) (tx : Half) :
    d.hearFrame s c false tx = { d with slave := d.slave.frame8 tx.lowByte } := by
  simp [Device.hearFrame, h]

/-- A frame leaves a device on its wires (R199). -/
theorem Device.hearFrame_wires (s : State) (c : Nat) (wide : Bool) (tx : Half) (d : Device) :
    ((d.hearFrame s c wide tx).chan, (d.hearFrame s c wide tx).port, (d.hearFrame s c wide tx).pin)
      = (d.chan, d.port, d.pin) := by
  unfold Device.hearFrame
  split <;> rfl

/-- `exec` of a wire form is the frame of its header byte (R110). -/
theorem exec_wireForm {a : BitVec 6} {i : Instr} {read mb : Bool}
    (h : (i, read, mb) ∈ [(.wireWriteMb a, false, true), (.wireReadMb a, true, true), (.wireWriteSb a, false, false),
      (.wireReadSb a, true, false)]) (s : State) : exec i s = headerFrame (headerByte read mb a) s := by
  simp only [List.mem_cons, Prod.mk.injEq, List.not_mem_nil, or_false] at h
  rcases h with ⟨rfl, rfl, rfl⟩ | ⟨rfl, rfl, rfl⟩ | ⟨rfl, rfl, rfl⟩ | ⟨rfl, rfl, rfl⟩ <;> rfl

/-- A header byte has nothing to complete where no 8-bit frame is in flight (log 25). -/
theorem headerFrame_of_none {s : State} {ch : Channel} (b : Byte) (hch : s.chans[s.lnk]? = some ch)
    (h : ch.completeEnabled = false ∨ ch.wide = true) : headerFrame b s = .next s := by
  rcases h with h | h <;> simp [headerFrame, hch, h]

/-- Settles O49: the frame is recorded, and every device hears it. -/
theorem wireHeaderSetsTheDevice : Obligations.WireHeaderSetsTheDevice := by
  intro s a i read mb ch hi hch
  rw [exec_wireForm hi]
  refine ⟨fun hen hwide => ?_, headerFrame_of_none _ hch⟩
  refine ⟨_, s.slaveAnswer s.lnk ch.wide (headerByte read mb a).toHalf &&& ch.mask,
    headerFrame_of_frame _ hch hen hwide, ?_, rfl, ?_, by simp, ?_⟩
  · rw [State.completeFrame_trace, headerByte_toHalf]
  · have hmask : ch.mask = 0x00FF#16 := by simp [Channel.mask, hwide]
    rw [hmask, BitVec.and_assoc, BitVec.and_self]
  · intro k d hd
    refine ⟨d.hearFrame s s.lnk ch.wide (headerByte read mb a).toHalf, by simp [hd],
      Device.hearFrame_wires _ _ _ _ d, fun hoff => Device.hearFrame_unselected hoff _ _,
      fun hon hphase => ?_⟩
    rw [hwide, Device.hearFrame_selected hon, lowByte_toHalf, RefSlave.frame8_header hphase]

end Sys2Proof.Machine
end

section
/-! O59: the operation at the bottom of the stack. -/

namespace Sys2Proof.Machine

theorem State.entryOk_iff (s : State) :
    s.entryOk = true ↔ ∀ f, s.pc.getLast? = some f → f.op.issuable = true := by
  unfold State.entryOk
  cases s.pc.getLast? <;> simp

/-- Two stacks whose bottom frames are of the same operation. -/
theorem State.entryOk_of_bottom {s t : State} (hs : s.entryOk = true)
    (h : t.pc.getLast?.map Frame.op = s.pc.getLast?.map Frame.op) : t.entryOk = true := by
  rw [State.entryOk_iff] at hs ⊢
  intro f hf
  rw [hf] at h
  obtain ⟨g, hg, hop⟩ := Option.map_eq_some_iff.mp h.symm
  exact hop ▸ hs g hg

theorem State.entryOk_of_empty {t : State} (h : t.pc = []) : t.entryOk = true := by
  simp [State.entryOk, h]

/-- A line leaves the bottom of the stack to the same operation, or the stack empty (R39, R160). -/
theorem LineEffect.keeps_entryOk {s t : State} {f : Frame} {rest : List Frame} (h : LineEffect s f t)
    (hrun : s.running f rest) (hs : s.entryOk = true) : t.entryOk = true := by
  have hpc := hrun.2
  rcases h.pc_cases hrun with hnil | ⟨g, hop, htop⟩ | rfl | ⟨i, -, rfl⟩
  · exact State.entryOk_of_empty hnil
  · refine State.entryOk_of_bottom hs ?_
    rw [htop, hpc]
    cases rest with
    | nil => simp [hop]
    | cons g' gs => simp [List.getLast?_cons_cons]
  · cases rest with
    | nil =>
      rw [s.ret_to_idle f hpc]
      exact State.entryOk_of_empty rfl
    | cons g gs =>
      rw [s.ret_to_caller f g gs hpc]
      refine State.entryOk_of_bottom hs ?_
      rw [hpc]
      cases gs <;> simp [List.getLast?_cons_cons]
  · refine State.entryOk_of_bottom hs ?_
    rw [State.call_pc, hpc, List.getLast?_cons_cons]

/-- Settles O59: a line keeps the bottom's operation, the port accepts an operation HOST may issue, every other step
leaves the stack or empties it. -/
theorem internalOperationsOnlyCalled : Obligations.InternalOperationsOnlyCalled := by
  intro s t hs hstep
  cases stepEffect_of_step hstep with
  | line hseq hrun h => exact h.keeps_entryOk (s := s.spendTurn) hrun hs
  | reset => exact State.entryOk_of_empty rfl
  | reject => exact State.entryOk_of_empty rfl
  | @accept d rest i hact hinbox hi =>
    rw [State.entryOk_iff] at hs ⊢
    intro f hf
    have hpc : (Frame.start i :: s.pc).getLast? = some f := hf
    cases hbelow : s.pc with
    | nil =>
      rw [hbelow] at hpc
      cases hpc
      exact hi
    | cons g gs =>
      rw [hbelow, List.getLast?_cons_cons, ← hbelow] at hpc
      exact hs f hpc
  | _ => exact hs

end Sys2Proof.Machine
end

section
/-! Scheduled runs. `Drives ts s t`: the turns `ts` lead from `s` to `t`, whatever the counts of steps and polls and the
schedule behind them; such runs compose, and a line that passes or a link agent's step is one of a single turn. -/

namespace Sys2Proof.Machine

/-! Runs of a schedule (R79) -/

/-- The state with another schedule and other counts of steps and polls. -/
def State.clocked (s : State) (turns : List Turn) (tick polls : Nat) : State :=
  { s with turns := turns, tick := tick, polls := polls }

/-- The turns `ts` lead from `s` to `t`, whatever the counts of steps and polls and the schedule behind them. -/
def Drives (ts : List Turn) (s t : State) : Prop :=
  ∀ more tick polls, ∃ tick' polls',
    Host.Core.run core ts.length (s.clocked (ts ++ more) tick polls) = .next (t.clocked more tick' polls')

theorem run_add {t : State} (n : Nat) : ∀ {m : Nat} {s : State}, Host.Core.run core m s = .next t →
    Host.Core.run core (m + n) s = Host.Core.run core n t
  | 0, s, h => by
    cases h
    rw [Nat.zero_add]
  | m + 1, s, h => by
    rw [Nat.add_right_comm]
    simp only [Host.Core.run] at h ⊢
    split at h
    · exact run_add n h
    · cases h
    · cases h

theorem Drives.trans {ts us : List Turn} {s t u : State} (h₁ : Drives ts s t) (h₂ : Drives us t u) :
    Drives (ts ++ us) s u := by
  intro more tick polls
  obtain ⟨tick', polls', hrun₁⟩ := h₁ (us ++ more) tick polls
  obtain ⟨tick'', polls'', hrun₂⟩ := h₂ more tick' polls'
  refine ⟨tick'', polls'', ?_⟩
  rw [List.length_append, List.append_assoc, run_add _ hrun₁, hrun₂]

theorem Drives.of_step {a : Turn} {s t : State}
    (h : ∀ turns tick polls, ∃ polls', agentStep a (s.clocked turns tick polls) = .next (t.clocked turns tick polls')) :
    Drives [a] s t := by
  intro more tick polls
  obtain ⟨polls', hstep⟩ := h more (tick + 1) polls
  have hturn : (s.clocked (a :: more) tick polls).nextTurn = some a := State.nextTurn_of_turns rfl
  have hcore : core.step (s.clocked (a :: more) tick polls) = .next (t.clocked more (tick + 1) polls') :=
    (step_of_nextTurn hturn).trans hstep
  refine ⟨tick + 1, polls', ?_⟩
  simp only [List.singleton_append, List.length_singleton, Host.Core.run, hcore]

/-- SEQ's turn in RUN is a line of the operation on top (R39). -/
theorem Drives.of_exec {s t : State} {f : Frame} {rest : List Frame} (hrun : s.running f rest)
    (h : ∀ turns tick polls, ∃ polls', exec f.op (s.clocked turns tick polls) = .next (t.clocked turns tick polls')) :
    Drives [.seq] s t := by
  refine .of_step fun turns tick polls => ?_
  obtain ⟨hmode, hpc⟩ : (s.clocked turns tick polls).running f rest := hrun
  obtain ⟨polls', hx⟩ := h turns tick polls
  refine ⟨polls', ?_⟩
  simp only [agentStep, seqStep, hmode, hpc, hx]

/-- The state with another stack. -/
def State.atPc (s : State) (pc : List Frame) : State := { s with pc := pc }

/-! Lines that pass -/

/-- What a poll makes of the channel (R68, R131). -/
def Channel.polled (ch : Channel) : Channel := { ch with ovr := ch.ovr && !ch.ovrArm, ovrArm := false }

section Line

variable {s : State} {f : Frame} {rest : List Frame} (hrun : s.running f rest)

include hrun

/-- A line with an assertion goes on or raises (R211). -/
theorem exec_of_contract {cond : Bool} {code : Byte} {info : Word}
    (h : contract s f.op f.line f.cfg = some (cond, code, info)) :
    exec f.op s = if cond then .next (s.setTop f.next) else .next (s.faulted code info) := by
  unfold contract at h
  split at h
  case h_1 hop hl =>
    cases h
    rw [hop, exec, execSpiInit, operation_of_running hrun]
    simp only [hl]
    rfl
  case h_2 hop hl | h_3 hop hl | h_4 hop hl =>
    cases h
    rw [hop, exec, execSpiTransfer, operation_of_running hrun]
    simp only [hl]
    rfl
  case h_5 hop hl | h_6 hop hl | h_7 hop hl =>
    cases h
    rw [hop, exec, execSpiReceive, operation_of_running hrun]
    simp only [hl]
    rfl
  case h_8 hop hl | h_9 hop hl =>
    cases h
    rw [hop, exec, execCsAssert, operation_of_running hrun]
    simp only [chipSelect, hl]
    rfl
  case h_10 hop hl | h_11 hop hl =>
    cases h
    rw [hop, exec, execCsDeassert, operation_of_running hrun]
    simp only [chipSelect, hl]
    rfl
  case h_12 => cases h

/-- A line with a wait is that poll (R131). -/
theorem exec_of_waits {c : Byte} {fl : Flag} {v : Bool} (h : waits f.op f.line = some (c, fl, v)) :
    exec f.op s = waitUntil c.toNat fl v f s := by
  unfold waits at h
  split at h
  case h_1 hop hl | h_2 hop hl | h_3 hop hl =>
    cases h
    rw [hop, exec, execSpiTransfer, operation_of_running hrun]
    simp only [hl]
  case h_4 hop hl =>
    cases h
    rw [hop, exec, execSpiReceive, operation_of_running hrun]
    simp only [hl]
  case h_5 => cases h

theorem drives_assertion {code : Byte} {info : Word} (h : contract s f.op f.line f.cfg = some (true, code, info)) :
    Drives [.seq] s (s.atPc (f.next :: rest)) := by
  refine .of_exec hrun fun turns tick polls => ⟨polls, ?_⟩
  rw [exec_of_contract (s := s.clocked turns tick polls) hrun h, if_pos rfl,
    State.setTop_of_running (s := s.clocked turns tick polls) hrun]
  rfl

theorem drives_wait {c : Byte} {fl : Flag} {v : Bool} {ch : Channel} (h : waits f.op f.line = some (c, fl, v))
    (hch : s.chans[c.toNat]? = some ch) (hflag : ch.flag fl = v) :
    Drives [.seq] s ((s.setChan c.toNat ch.polled).atPc (f.next :: rest)) := by
  refine .of_exec hrun fun turns tick polls => ⟨0, ?_⟩
  have hch' : (s.clocked turns tick polls).chans[c.toNat]? = some ch := hch
  rw [exec_of_waits (s := s.clocked turns tick polls) hrun h]
  simp only [waitUntil, hch', if_pos hflag, Channel.afterStatusRead_eq]
  rw [State.setTop_of_running (s := (s.clocked turns tick polls).setChan _ _) hrun]
  rfl

end Line

/-! Returns (R39) -/

/-- The state after the return of the operation above `rest`: in the caller's next line, or idle. -/
def State.returned (s : State) (rest : List Frame) : State :=
  { s with
    pc := match rest with
      | [] => []
      | g :: gs => g.next :: gs
    mode := match rest with
      | [] => .idle
      | _ :: _ => s.mode }

theorem State.ret_eq_returned {s : State} {f : Frame} {rest : List Frame} (hrun : s.running f rest) :
    s.ret = s.returned rest := by
  cases rest with
  | nil => exact s.ret_to_idle f hrun.2
  | cons g gs => exact s.ret_to_caller f g gs hrun.2

theorem State.returned_returnedTo {s : State} {rest : List Frame} (hmode : s.mode = .run) :
    (s.returned rest).returnedTo rest := by
  cases rest with
  | nil => exact ⟨rfl, rfl⟩
  | cons g gs => exact ⟨hmode, rfl⟩

theorem drives_return {s : State} {f : Frame} {rest : List Frame} (hrun : s.running f rest)
    (h : ∀ u : State, u.running f rest → exec f.op u = .next u.ret) : Drives [.seq] s (s.returned rest) := by
  refine .of_exec hrun fun turns tick polls => ⟨polls, ?_⟩
  rw [h (s.clocked turns tick polls) hrun, State.ret_eq_returned (s := s.clocked turns tick polls) hrun]
  rfl

/-! The link agents' steps (R192, R193) -/

theorem linkStep_start {s : State} {c : Nat} {ch : Channel} (hch : s.chans[c]? = some ch)
    (hen : ch.startEnabled = true) : linkStep c s = .next { s.setChan c ch.started with lnk := c } := by
  simp only [linkStep, hch, hen, if_pos]

/-- LINK_COMPLETE is the same whether a device takes the frame for a header or not (R193, R199). -/
theorem linkStep_complete {s : State} {c : Nat} {ch : Channel} (hch : s.chans[c]? = some ch)
    (hen : ch.completeEnabled = true) : linkStep c s = .next (s.completeFrame c ch (ch.shift &&& ch.mask)) := by
  by_cases hheader : (s.headerDue c && !ch.wide) = true
  · simp only [Bool.and_eq_true, Bool.not_eq_true'] at hheader
    obtain ⟨hdue, hwide⟩ := hheader
    obtain ⟨b, hb, hframe⟩ := exec_decodeHeader ch.shift.lowByte { s with lnk := c }
    cases hb.symm.trans (encode_decodeHeader _)
    rw [linkStep_of_header hch hen hwide hdue, hframe,
      headerFrame_of_frame (s := { s with lnk := c }) _ hch hen hwide, Channel.lowByte_eq_masked hwide]
    rfl
  · simp only [linkStep, hch, Channel.startEnabled_of_completeEnabled hen, hen, if_neg hheader]
    rfl

theorem drives_linkStart {s : State} {c : Nat} {ch : Channel} (hch : s.chans[c]? = some ch)
    (hen : ch.startEnabled = true) : Drives [.link c] s { s.setChan c ch.started with lnk := c } :=
  .of_step fun turns tick polls => ⟨polls, linkStep_start (s := s.clocked turns tick polls) hch hen⟩

theorem drives_linkComplete {s : State} {c : Nat} {ch : Channel} (hch : s.chans[c]? = some ch)
    (hen : ch.completeEnabled = true) : Drives [.link c] s (s.completeFrame c ch (ch.shift &&& ch.mask)) :=
  .of_step fun turns tick polls => ⟨polls, linkStep_complete (s := s.clocked turns tick polls) hch hen⟩

end Sys2Proof.Machine
end

section
/-! The frames of a run: what the frames on a channel make of the TRACE and the devices (`wireFrames`), the words they
receive (`answers`), and the two link steps that exchange one word. -/

namespace Sys2Proof.Machine

/-! The wire (R193, R196) -/

/-- The state `b` with the pins, the TRACE and the devices of `w`, and what the slave's answers depend on besides. -/
def State.inWorld (b w : State) : State :=
  { b with pins := w.pins, trace := w.trace, devices := w.devices, epoch := w.epoch, lnk := w.lnk }

/-- `2^W(c) - 1` (R193). -/
def frameMask (wide : Bool) : Half := if wide then 0xFFFF#16 else 0x00FF#16

/-- The word received in a frame that sends `tx`, masked (R193, R196). -/
def State.answer (s : State) (c : Nat) (wide : Bool) (tx : Half) : Half := s.slaveAnswer c wide tx &&& frameMask wide

/-- A frame as the wire has it: the event, and what the devices hear (R193, R199). -/
def State.wireFrame (s : State) (c : Nat) (wide : Bool) (tx : Half) : State :=
  { s with
    trace := s.trace ++ [.frame c tx (s.answer c wide tx)]
    devices := s.devices.map (Device.hearFrame s c wide tx)
    lnk := c }

/-- LINK_COMPLETE is a frame on the wire, and the channel completed with its answer (R193). -/
theorem State.completeFrame_eq_wireFrame (s : State) (c : Nat) (ch : Channel) (tx : Half) :
    s.completeFrame c ch tx = (s.wireFrame c ch.wide tx).setChan c (ch.completed (s.answer c ch.wide tx)) := rfl

/-- Frames that send these words, one after the other. -/
def State.wireFrames (s : State) (c : Nat) (wide : Bool) : List Half → State
  | [] => s
  | tx :: txs => (s.wireFrame c wide tx).wireFrames c wide txs

/-- The words received in these frames. -/
def State.answers (s : State) (c : Nat) (wide : Bool) : List Half → List Half
  | [] => []
  | tx :: txs => s.answer c wide tx :: (s.wireFrame c wide tx).answers c wide txs

@[simp] theorem State.answers_length (c : Nat) (wide : Bool) : ∀ (txs : List Half) (s : State),
    (s.answers c wide txs).length = txs.length
  | [], _ => rfl
  | tx :: txs, s => congrArg (· + 1) (State.answers_length c wide txs (s.wireFrame c wide tx))

@[simp] theorem State.wireFrames_pins (c : Nat) (wide : Bool) : ∀ (txs : List Half) (s : State),
    (s.wireFrames c wide txs).pins = s.pins
  | [], _ => rfl
  | tx :: txs, s => State.wireFrames_pins c wide txs (s.wireFrame c wide tx)

theorem State.wireFrames_trace (c : Nat) (wide : Bool) : ∀ (txs : List Half) (s : State),
    (s.wireFrames c wide txs).trace = s.trace ++ framesOf c txs (s.answers c wide txs)
  | [], s => (List.append_nil s.trace).symm
  | tx :: txs, s => by
    rw [State.wireFrames, State.wireFrames_trace c wide txs]
    simp [State.wireFrame, State.answers, framesOf]

/-! One word exchanged (R192, R193) -/

/-- A channel given `v` to send while ready, when its frame has completed with the answer `rx`. -/
def Channel.exchanged (ch : Channel) (v rx : Half) : Channel := (ch.afterDataWrite v).started.completed rx

theorem State.setChan_setChan (s : State) (c : Nat) (ch ch' : Channel) :
    (s.setChan c ch).setChan c ch' = s.setChan c ch' := by
  simp only [State.setChan, List.set_set]

theorem State.getElem?_setChan {s : State} {c : Nat} {ch : Channel} (h : s.chans[c]? = some ch) (ch' : Channel) :
    (s.setChan c ch').chans[c]? = some ch' :=
  List.getElem?_set_self (List.getElem?_eq_some_iff.mp h).1

theorem Channel.ready_iff (ch : Channel) :
    ch.ready = true ↔ ch.linkOn = true ∧ ch.txe = true ∧ ch.shiftActive = false := by
  simp [Channel.ready, and_assoc]

/-- The configuration of a channel is its control register's (R191). -/
theorem Channel.ready_of_ctrl1 {ch ch' : Channel} (h : ch.ready = true) (hctrl : ch'.ctrl1 = ch.ctrl1)
    (htxe : ch'.txe = true) (hshift : ch'.shiftActive = false) : ch'.ready = true := by
  refine ch'.ready_iff.mpr ⟨?_, htxe, hshift⟩
  simpa only [Channel.linkOn, Channel.enable, Channel.role, Channel.rxonly, hctrl] using (ch.ready_iff.mp h).1

theorem Channel.wide_of_ctrl1 {ch ch' : Channel} (hctrl : ch'.ctrl1 = ch.ctrl1) : ch'.wide = ch.wide := by
  rw [Channel.wide, hctrl, Channel.wide]

/-- A channel in which LINK steps is none that R206 leaves open. -/
theorem Channel.linkOpen_of_ready {ch : Channel} (h : ch.ready = true) : ch.linkOpen = false := by
  have hon := (ch.ready_iff.mp h).1
  simp only [Channel.linkOn, Bool.and_eq_true, Bool.not_eq_true'] at hon
  obtain ⟨⟨-, hrole⟩, hrx⟩ := hon
  simp [Channel.linkOpen, hrole, hrx]

/-- LINK_START and LINK_COMPLETE of the word written to a ready channel. -/
theorem drives_exchange {b : State} (w : State) {c : Nat} {ch : Channel} {v : Half} (hready : ch.ready = true)
    (hc : b.chans[c]? = some (ch.afterDataWrite v)) :
    Drives [.link c, .link c] (b.inWorld w)
      ((b.setChan c (ch.exchanged v (w.answer c ch.wide (v &&& ch.mask)))).inWorld
        (w.wireFrame c ch.wide (v &&& ch.mask))) := by
  obtain ⟨hon, -, hshift⟩ := ch.ready_iff.mp hready
  have hstart : (ch.afterDataWrite v).startEnabled = true := by
    show (ch.linkOn && !false && !ch.shiftActive) = true
    rw [hon, hshift]
    rfl
  have hcomplete : (ch.afterDataWrite v).started.completeEnabled = true := Bool.and_eq_true_iff.mpr ⟨hon, rfl⟩
  have hstarted : { (b.inWorld w).setChan c (ch.afterDataWrite v).started with lnk := c }.chans[c]?
      = some (ch.afterDataWrite v).started := State.getElem?_setChan hc _
  have hframe := drives_linkComplete hstarted hcomplete
  rw [State.completeFrame_eq_wireFrame] at hframe
  rw [← State.setChan_setChan b c (ch.afterDataWrite v).started]
  exact (drives_linkStart (s := b.inWorld w) hc hstart).trans hframe

end Sys2Proof.Machine
end

section
/-! SPI_TRANSFER and SPI_RECEIVE on the eager schedule, from a ready channel: the lines in the schedule's order, one word,
the loop by induction on the words left, and the whole operation from line 1 to its return. -/

namespace Sys2Proof.Machine

/-! Lines in a scheduled run -/

theorem Frame.next_eq_goto {f : Frame} {n : Nat} (hl : f.line = n) : f.next = f.goto (n + 1) :=
  congrArg (fun k => f.goto (k + 1)) hl

section Line

variable {s : State} {f : Frame} {rest : List Frame} (hrun : s.running f rest)

include hrun

/-- A line that writes DATA while TXE = 1 (R66). -/
theorem drives_dataWrite {c : Nat} {cc : Channel} {v : Half} {g : Frame}
    (hx : ∀ u : State, u.running f rest → exec f.op u = regWrite c .data v u (fun u' => .next (u'.setTop g)))
    (hc : s.chans[c]? = some cc) (htxe : cc.txe = true) :
    Drives [.seq] s ((s.setChan c (cc.afterDataWrite v)).atPc (g :: rest)) := by
  refine .of_exec hrun fun turns tick polls => ⟨polls, ?_⟩
  rw [hx (s.clocked turns tick polls) hrun,
    regWrite_of_chan (s := s.clocked turns tick polls) hc (Channel.afterWrite_data htxe v),
    State.setTop_of_running (s := (s.clocked turns tick polls).setChan c _) hrun]
  rfl

/-- A line that reads a register (R67, R68). -/
theorem drives_regRead {c : Nat} {cc : Channel} {r : Reg} {g : Half → Frame}
    (hx : ∀ u : State, u.running f rest → exec f.op u = regRead c r u (fun d u' => .next (u'.setTop (g d))))
    (hc : s.chans[c]? = some cc) :
    Drives [.seq] s ((s.setChan c (cc.afterRead r)).atPc (g (cc.readValue r) :: rest)) := by
  refine .of_exec hrun fun turns tick polls => ⟨polls, ?_⟩
  rw [hx (s.clocked turns tick polls) hrun, regRead_of_chan (s := s.clocked turns tick polls) hc,
    State.setTop_of_running (s := (s.clocked turns tick polls).setChan c _) hrun]
  rfl

theorem drives_loopHead {ch : Byte} {cc : Channel}
    (hx : ∀ u : State, u.running f rest → exec f.op u = loopHead ch f u) (hc : s.chans[ch.toNat]? = some cc)
    (hready : cc.ready = true) : Drives [.seq] s (s.atPc ({ f.next with idx := 0#16 } :: rest)) := by
  refine .of_exec hrun fun turns tick polls => ⟨polls, ?_⟩
  rw [hx (s.clocked turns tick polls) hrun,
    loopHead_passes (s := s.clocked turns tick polls) hrun hc (.inl (Channel.linkOpen_of_ready hready))]
  rfl

theorem drives_cell {ch : Byte} {count : Half} {buf : Word} {e : Half} (hop : f.op = .spiTransfer ch count buf)
    (hl : f.line = 6) (he : s.bufRead buf f.idx.toNat = some e) :
    Drives [.seq] s (s.atPc ({ f.next with tmp := e } :: rest)) := by
  refine .of_exec hrun fun turns tick polls => ⟨polls, ?_⟩
  rw [exec_spiTransfer_cell (s := s.clocked turns tick polls) hrun hop hl,
    fetchCell_of_bufRead (s := s.clocked turns tick polls) hrun he]
  rfl

/-- Lines 1 to 4 of SPI_TRANSFER and SPI_RECEIVE: the assertions hold and the loop begins (R138, R141). -/
theorem drives_entry {ch : Byte} {count : Half} {buf : Word} {cc : Channel}
    (hop : f.op = .spiTransfer ch count buf ∨ f.op = .spiReceive ch count buf) (hl : f.line = 1)
    (hch : ch.toNat < s.params.nCh) (hcount : count ≠ 0#16) (hbuf : buf ≠ 0#32)
    (hc : s.chans[ch.toNat]? = some cc) (hready : cc.ready = true) :
    Drives (List.replicate 4 .seq) s (s.atPc ({ f.goto 5 with idx := 0#16 } :: rest)) := by
  have hgoto : f.next.next.next.next = f.goto 5 := congrArg (·.next.next.next) (Frame.next_eq_goto hl)
  have hchannel : contract s f.op f.line f.cfg = some (true, 1#8, ch.toWord) := by
    rcases hop with hop | hop <;> simp [contract, hop, hl, hch]
  have hcounted : contract s f.next.op f.next.line f.cfg = some (true, 3#8, 0#32) := by
    rcases hop with hop | hop <;> simp [contract, hop, hl, hcount]
  have hgiven : contract s f.next.next.op f.next.next.line f.cfg = some (true, 4#8, 0#32) := by
    rcases hop with hop | hop <;> simp [contract, hop, hl, hbuf]
  have hhead : ∀ u : State, u.running f.next.next.next rest →
      exec f.next.next.next.op u = loopHead ch f.next.next.next u := by
    intro u hu
    rcases hop with hop | hop
    · exact exec_spiTransfer_loopHead hu hop (by simp [hl])
    · exact exec_spiReceive_loopHead hu hop (by simp [hl])
  have hrun₁ : (s.atPc (f.next :: rest)).running f.next rest := ⟨hrun.1, rfl⟩
  have hrun₂ : (s.atPc (f.next.next :: rest)).running f.next.next rest := ⟨hrun.1, rfl⟩
  have hrun₃ : (s.atPc (f.next.next.next :: rest)).running f.next.next.next rest := ⟨hrun.1, rfl⟩
  rw [← hgoto]
  exact (drives_assertion hrun hchannel).trans
    ((drives_assertion hrun₁ hcounted).trans
      ((drives_assertion hrun₂ hgiven).trans (drives_loopHead hrun₃ hhead hc hready)))

end Line

/-! The ends of a loop's body (R39) -/

theorem Frame.loop_again {f : Frame} {count : Half} (h : f.idx.toNat + 1 < count.toNat) (first after : Nat) :
    f.loop count first after = { f.goto first with idx := f.idx + 1#16 } := if_pos h

theorem Frame.loop_done {f : Frame} {count : Half} (h : f.idx.toNat + 1 = count.toNat) (first after : Nat) :
    f.loop count first after = f.goto after := if_neg (by omega)

theorem toNat_next_idx {idx count : Half} (h : idx.toNat + 1 < count.toNat) : (idx + 1#16).toNat = idx.toNat + 1 := by
  have hlt := count.isLt
  rw [BitVec.toNat_add, BitVec.toNat_ofNat]
  omega

/-! What frames make of a channel (R139, R142) -/

/-- What the frames of a transfer make of a ready channel: RXNE = 1 and RXBUF the first of the words received, or its old
content if RXNE was 1 (R139, R193). -/
structure Channel.HasSent (ch : Channel) (received : List Half) (ch' : Channel) : Prop where
  ctrl1 : ch'.ctrl1 = ch.ctrl1
  ctrl2 : ch'.ctrl2 = ch.ctrl2
  rxne : ch'.rxne = true
  txe : ch'.txe = true
  bsy : ch'.bsy = false
  shiftActive : ch'.shiftActive = false
  rxbuf : some ch'.rxbuf = if ch.rxne then some ch.rxbuf else received[0]?

theorem Channel.hasSent_exchanged (ch : Channel) (v rx : Half) : ch.HasSent [rx] (ch.polled.exchanged v rx) where
  ctrl1 := rfl
  ctrl2 := rfl
  rxne := rfl
  txe := rfl
  bsy := rfl
  shiftActive := rfl
  rxbuf := by
    show some (if ch.rxne then ch.rxbuf else rx) = if ch.rxne then some ch.rxbuf else some rx
    split <;> rfl

theorem Channel.HasSent.trans {ch ch₁ ch₂ : Channel} {rx : Half} {received : List Half} (h₁ : ch.HasSent [rx] ch₁)
    (h₂ : ch₁.HasSent received ch₂) : ch.HasSent (rx :: received) ch₂ where
  ctrl1 := h₂.ctrl1.trans h₁.ctrl1
  ctrl2 := h₂.ctrl2.trans h₁.ctrl2
  rxne := h₂.rxne
  txe := h₂.txe
  bsy := h₂.bsy
  shiftActive := h₂.shiftActive
  rxbuf := by
    have hkept : some ch₂.rxbuf = some ch₁.rxbuf := by rw [h₂.rxbuf, if_pos h₁.rxne]
    exact hkept.trans h₁.rxbuf

/-- The channel as an operation leaves it: STATUS at 0x0002 and nothing in flight (R139, R142). -/
structure Channel.Idled (ch ch' : Channel) : Prop where
  ctrl1 : ch'.ctrl1 = ch.ctrl1
  ctrl2 : ch'.ctrl2 = ch.ctrl2
  rxne : ch'.rxne = false
  txe : ch'.txe = true
  ovr : ch'.ovr = false
  bsy : ch'.bsy = false
  shiftActive : ch'.shiftActive = false

theorem Channel.Idled.statusWord {ch ch' : Channel} (h : ch.Idled ch') : ch'.statusWord = 0x0002#16 := by
  simp only [Channel.statusWord, h.rxne, h.txe, h.ovr, h.bsy]
  rfl

theorem Channel.Idled.ready {ch ch' : Channel} (h : ch.Idled ch') (hready : ch.ready = true) : ch'.ready = true :=
  Channel.ready_of_ctrl1 hready h.ctrl1 h.txe h.shiftActive

theorem Channel.Idled.trans {ch ch₁ ch₂ : Channel} (h₁ : ch.Idled ch₁) (h₂ : ch₁.Idled ch₂) : ch.Idled ch₂ :=
  { h₂ with ctrl1 := h₂.ctrl1.trans h₁.ctrl1, ctrl2 := h₂.ctrl2.trans h₁.ctrl2 }

/-- Lines 8 to 11 of SPI_TRANSFER: two polls, and the two dummy reads (R138). -/
def Channel.drained (ch : Channel) : Channel := ch.polled.polled.afterDataRead.polled

theorem Channel.HasSent.idled {ch ch' : Channel} {received : List Half} (h : ch.HasSent received ch') :
    ch.Idled ch'.drained where
  ctrl1 := h.ctrl1
  ctrl2 := h.ctrl2
  rxne := rfl
  txe := h.txe
  ovr := by
    have hovr : ∀ o : Bool, (o && !(false || o)) = false := by decide
    exact hovr _
  bsy := h.bsy
  shiftActive := h.shiftActive

/-! SPI_TRANSFER -/

section Transfer

variable {f : Frame} {rest : List Frame} {ch : Byte} {count : Half} {buf : Word} {cc : Channel}

/-- One word of the loop: the poll, the cell, the write and the two link steps (R138). -/
theorem drives_transferWord {b : State} (w : State) {e : Half} (hrun : b.running f rest)
    (hentry : f.atLine (.spiTransfer ch count buf) 5) (hc : b.chans[ch.toNat]? = some cc) (hready : cc.ready = true)
    (he : b.bufRead buf f.idx.toNat = some e) :
    Drives [.seq, .seq, .seq, .link ch.toNat, .link ch.toNat] (b.inWorld w)
      (((b.setChan ch.toNat (cc.polled.exchanged e (w.answer ch.toNat cc.wide (e &&& cc.mask)))).atPc
        ({ f.goto 7 with tmp := e }.loop count 5 8 :: rest)).inWorld (w.wireFrame ch.toNat cc.wide (e &&& cc.mask))) := by
  obtain ⟨hop, hl⟩ := hentry
  have hnext : f.next.next = f.goto 7 := congrArg Frame.next (Frame.next_eq_goto hl)
  have htxe : cc.txe = true := (cc.ready_iff.mp hready).2.1
  have hready' : cc.polled.ready = true := hready
  have hc₁ := State.getElem?_setChan hc cc.polled
  have hc₂ := State.getElem?_setChan hc₁ (cc.polled.afterDataWrite e)
  have hpoll := drives_wait (s := b.inWorld w) hrun (c := ch) (fl := .txe) (v := true)
    (by simp [waits, hop, hl]) hc htxe
  have hcell := drives_cell (s := ((b.setChan ch.toNat cc.polled).atPc (f.next :: rest)).inWorld w) (rest := rest)
    ⟨hrun.1, rfl⟩ (f := f.next) hop (by simp [hl]) he
  have hwrite := drives_dataWrite
    (s := ((b.setChan ch.toNat cc.polled).atPc ({ f.next.next with tmp := e } :: rest)).inWorld w) (rest := rest)
    ⟨hrun.1, rfl⟩ (fun u hu => exec_spiTransfer_write hu hop (by simp [hl])) hc₁ htxe
  have hlink := drives_exchange
    (b := ((b.setChan ch.toNat cc.polled).setChan ch.toNat (cc.polled.afterDataWrite e)).atPc
      ({ f.next.next with tmp := e }.loop count 5 8 :: rest)) w hready' hc₂
  have hall := hpoll.trans (hcell.trans (hwrite.trans hlink))
  rw [← hnext, ← State.setChan_setChan b ch.toNat cc.polled,
    ← State.setChan_setChan _ ch.toNat (cc.polled.afterDataWrite e)]
  exact hall

/-- The loop of SPI_TRANSFER, by induction on the cells left. -/
theorem drives_transferLoop : ∀ (cells : List Half) {b : State} (w : State) {f : Frame} {cc : Channel} (e : Half),
    b.running f rest → f.atLine (.spiTransfer ch count buf) 5 → b.chans[ch.toNat]? = some cc → cc.ready = true →
    f.idx.toNat + (e :: cells).length = count.toNat →
    (∀ k, k < (e :: cells).length → b.bufRead buf (f.idx.toNat + k) = (e :: cells)[k]?) →
    ∃ (g : Frame) (cc' : Channel),
      Drives (List.replicate (e :: cells).length [Turn.seq, .seq, .seq, .link ch.toNat, .link ch.toNat]).flatten
          (b.inWorld w)
          (((b.setChan ch.toNat cc').atPc (g :: rest)).inWorld
            (w.wireFrames ch.toNat cc.wide ((e :: cells).map (· &&& cc.mask))))
        ∧ g.atLine (.spiTransfer ch count buf) 8
        ∧ cc.HasSent (w.answers ch.toNat cc.wide ((e :: cells).map (· &&& cc.mask))) cc'
  | [], b, w, f, cc, e, hrun, hentry, hc, hready, hleft, hcells => by
    have hword := drives_transferWord w hrun hentry hc hready (hcells 0 (by simp))
    have hdone : { f.goto 7 with tmp := e }.idx.toNat + 1 = count.toNat := by simpa using hleft
    rw [Frame.loop_done hdone] at hword
    exact ⟨Frame.goto { f.goto 7 with tmp := e } 8,
      cc.polled.exchanged e (w.answer ch.toNat cc.wide (e &&& cc.mask)), hword, ⟨hentry.1, rfl⟩, cc.hasSent_exchanged e _⟩
  | e' :: cells, b, w, f, cc, e, hrun, hentry, hc, hready, hleft, hcells => by
    have hword := drives_transferWord w hrun hentry hc hready (hcells 0 (by simp))
    have hagain : { f.goto 7 with tmp := e }.idx.toNat + 1 < count.toNat := by
      simp only [List.length_cons] at hleft
      show f.idx.toNat + 1 < count.toNat
      omega
    rw [Frame.loop_again hagain] at hword
    have hidx : (f.idx + 1#16).toNat = f.idx.toNat + 1 := toNat_next_idx hagain
    have hsent := cc.hasSent_exchanged e (w.answer ch.toNat cc.wide (e &&& cc.mask))
    obtain ⟨g, cc', hloop, hg, hrest⟩ := drives_transferLoop cells
      (b := (b.setChan ch.toNat (cc.polled.exchanged e (w.answer ch.toNat cc.wide (e &&& cc.mask)))).atPc
        ({ { f.goto 7 with tmp := e }.goto 5 with idx := f.idx + 1#16 } :: rest))
      (w.wireFrame ch.toNat cc.wide (e &&& cc.mask)) e' ⟨hrun.1, rfl⟩ ⟨hentry.1, rfl⟩ (State.getElem?_setChan hc _)
      (Channel.ready_of_ctrl1 hready hsent.ctrl1 hsent.txe hsent.shiftActive)
      (by simp only [hidx, List.length_cons] at hleft ⊢; omega)
      (fun k hk => by
        rw [hidx, Nat.add_assoc, Nat.add_comm 1]
        exact hcells (k + 1) (by simpa using hk))
    refine ⟨g, cc', ?_, hg, hsent.trans hrest⟩
    rw [← State.setChan_setChan b ch.toNat (cc.polled.exchanged e (w.answer ch.toNat cc.wide (e &&& cc.mask)))]
    exact hword.trans hloop

/-- Lines 8 to 12 of SPI_TRANSFER: the two waits, the two dummy reads and the return (R138, R139). -/
theorem drives_transferTail {s : State} (hrun : s.running f rest) (hentry : f.atLine (.spiTransfer ch count buf) 8)
    (hc : s.chans[ch.toNat]? = some cc) (htxe : cc.txe = true) (hbsy : cc.bsy = false) :
    Drives (List.replicate 5 .seq) s ((s.setChan ch.toNat cc.drained).returned rest) := by
  obtain ⟨hop, hl⟩ := hentry
  have hc₁ := State.getElem?_setChan hc cc.polled
  have hc₂ := State.getElem?_setChan hc₁ cc.polled.polled
  have hc₃ := State.getElem?_setChan hc₂ cc.polled.polled.afterDataRead
  have hempty := drives_wait hrun (c := ch) (fl := .txe) (v := true) (by simp [waits, hop, hl]) hc htxe
  have hquiet := drives_wait (s := (s.setChan ch.toNat cc.polled).atPc (f.next :: rest)) (rest := rest) (f := f.next)
    ⟨hrun.1, rfl⟩ (c := ch) (fl := .bsy) (v := false) (by simp [waits, hop, hl]) hc₁ hbsy
  have hdata := drives_regRead (r := .data)
    (s := ((s.setChan ch.toNat cc.polled).setChan ch.toNat cc.polled.polled).atPc (f.next.next :: rest)) (rest := rest)
    ⟨hrun.1, rfl⟩ (fun u hu => exec_spiTransfer_readData hu hop (by simp [hl])) hc₂
  have hstatus := drives_regRead (r := .status)
    (s := (((s.setChan ch.toNat cc.polled).setChan ch.toNat cc.polled.polled).setChan ch.toNat
      cc.polled.polled.afterDataRead).atPc (f.next.next.next :: rest)) (rest := rest)
    ⟨hrun.1, rfl⟩ (fun u hu => exec_spiTransfer_readStatus hu hop (by simp [hl])) hc₃
  have hreturn := drives_return
    (s := ((((s.setChan ch.toNat cc.polled).setChan ch.toNat cc.polled.polled).setChan ch.toNat
      cc.polled.polled.afterDataRead).setChan ch.toNat cc.polled.polled.afterDataRead.afterStatusRead).atPc
      (f.next.next.next.next :: rest)) (rest := rest) ⟨hrun.1, rfl⟩
    (fun u hu => exec_spiTransfer_return hu hop (by simp [hl]))
  have hall := hempty.trans (hquiet.trans (hdata.trans (hstatus.trans hreturn)))
  simp only [State.setChan_setChan, Channel.afterStatusRead_eq] at hall
  exact hall

/-- SPI_TRANSFER on the eager schedule (R139): the frames of the buffer's cells, and the channel at rest. -/
theorem drives_transfer {b : State} (w : State) {cells : List Half} (hrun : b.running f rest)
    (hentry : f.atLine (.spiTransfer ch count buf) 1) (hch : ch.toNat < b.params.nCh) (hcount : count ≠ 0#16)
    (hbuf : buf ≠ 0#32) (hc : b.chans[ch.toNat]? = some cc) (hready : cc.ready = true)
    (hcells : b.firstCells buf count.toNat cells) :
    ∃ cc' : Channel,
      Drives (transferTurns ch.toNat count.toNat) (b.inWorld w)
          (((b.setChan ch.toNat cc').returned rest).inWorld
            (w.wireFrames ch.toNat cc.wide (cells.map (· &&& cc.mask))))
        ∧ cc.Idled cc' ∧ cc'.ovrArm = false
        ∧ some cc'.rxbuf = if cc.rxne then some cc.rxbuf
            else (w.answers ch.toNat cc.wide (cells.map (· &&& cc.mask)))[0]? := by
  obtain ⟨hop, hl⟩ := hentry
  obtain ⟨hlen, hread⟩ := hcells
  have hbegin := drives_entry (s := b.inWorld w) hrun (.inl hop) hl hch hcount hbuf hc hready
  cases cells with
  | nil => exact absurd (BitVec.eq_of_toNat_eq hlen.symm) hcount
  | cons e cells =>
    obtain ⟨g, cc₁, hloop, hg, hsent⟩ := drives_transferLoop (ch := ch) (count := count) (buf := buf) (rest := rest)
      cells (b := b.atPc ({ f.goto 5 with idx := 0#16 } :: rest)) w e ⟨hrun.1, rfl⟩ ⟨hop, rfl⟩ hc hready
      (by simpa using hlen) (fun k hk => (congrArg (b.bufRead buf) (Nat.zero_add k)).trans (hread k (hlen ▸ hk)))
    have htail := drives_transferTail
      (s := ((b.setChan ch.toNat cc₁).atPc (g :: rest)).inWorld
        (w.wireFrames ch.toNat cc.wide ((e :: cells).map (· &&& cc.mask)))) (rest := rest) (f := g)
      ⟨hrun.1, rfl⟩ hg (State.getElem?_setChan hc cc₁) hsent.txe hsent.bsy
    refine ⟨cc₁.drained, ?_, hsent.idled, rfl, hsent.rxbuf⟩
    rw [← State.setChan_setChan b ch.toNat cc₁, transferTurns, ← hlen]
    exact hbegin.trans (hloop.trans htail)

end Transfer

/-! SPI_RECEIVE -/

/-- The state with the memories and HDR given. -/
def State.withMem (s : State) (mem : Memory) (hdr : Vector Half 2) : State := { s with mem := mem, hdr := hdr }

/-- The memories and HDR given hold `ws` in the cells of `buf` from `i` on, and elsewhere what `b` holds. -/
structure State.Stored (b : State) (buf : Word) (i : Nat) (ws : List Half) (mem : Memory) (hdr : Vector Half 2) :
    Prop where
  cells : ∀ k, k < ws.length → (b.withMem mem hdr).bufRead buf (i + k) = ws[k]?
  others : ∀ ref k, (ref ≠ buf ∨ k < i ∨ i + ws.length ≤ k) → (b.withMem mem hdr).bufRead ref k = b.bufRead ref k

/-- A cell within the capacity is stored alike in all states with the same memories (R64). -/
theorem State.stored_of_cell {b : State} {buf : Word} {i : Nat} (h : (b.bufRead buf i).isSome) (v : Half) :
    ∃ mem hdr, b.Stored buf i [v] mem hdr ∧ ∀ s : State, s.params = b.params → s.mem = b.mem → s.hdr = b.hdr →
      s.bufWrite buf i v = some (s.withMem mem hdr) := by
  obtain ⟨u, hu⟩ := Option.isSome_iff_exists.mp ((b.bufWrite_isSome buf i v).trans h)
  obtain ⟨hcell, hothers⟩ := bufRead_of_bufWrite hu
  have hstored : ∀ {mem hdr}, u = b.withMem mem hdr → b.Stored buf i [v] mem hdr := by
    rintro mem hdr rfl
    refine ⟨fun k hk => ?_, fun ref k hk => hothers ref k ?_⟩
    · obtain rfl : k = 0 := by simpa using hk
      exact hcell
    · rcases hk with hk | hk
      · exact .inl hk
      · simp only [List.length_singleton] at hk
        exact .inr (by omega)
  rcases bufWrite_some hu with ⟨href, hi, rfl⟩ | ⟨href, hi, rfl⟩
  · refine ⟨b.mem, b.hdr.setIfInBounds i v, hstored rfl, fun s hp hm hh => ?_⟩
    simp only [State.bufWrite, hp, hh, if_pos href, if_pos hi, State.withMem, ← hm]
  · refine ⟨b.mem.putCells buf ((b.mem.cells buf).set i v), b.hdr, hstored rfl, fun s hp hm hh => ?_⟩
    simp only [State.bufWrite, hp, hm, if_neg href, if_pos hi, State.withMem, ← hh]

theorem State.Stored.cons {b b' : State} {buf : Word} {i j : Nat} {w : Half} {ws : List Half} {mem₁ mem : Memory}
    {hdr₁ hdr : Vector Half 2} (h₁ : b.Stored buf i [w] mem₁ hdr₁)
    (h₂ : b'.Stored buf j ws mem hdr) (hj : j = i + 1)
    (hb' : ∀ ref k, b'.bufRead ref k = (b.withMem mem₁ hdr₁).bufRead ref k)
    (hmem : ∀ ref k, (b'.withMem mem hdr).bufRead ref k = (b.withMem mem hdr).bufRead ref k) :
    b.Stored buf i (w :: ws) mem hdr := by
  subst hj
  refine ⟨fun k hk => ?_, fun ref k hk => ?_⟩
  · cases k with
    | zero =>
      rw [← hmem, h₂.others buf (i + 0) (.inr (.inl (by omega))), hb']
      exact h₁.cells 0 (by simp)
    | succ k =>
      have hplace : i + (k + 1) = i + 1 + k := by omega
      rw [← hmem, hplace]
      exact h₂.cells k (by simpa using hk)
  · simp only [List.length_cons] at hk
    rw [← hmem, h₂.others ref k (hk.imp_right (by omega)), hb',
      h₁.others ref k (hk.imp_right (by simp only [List.length_singleton]; omega))]

section Receive

variable {f : Frame} {rest : List Frame} {ch : Byte} {count : Half} {buf : Word} {cc : Channel}

/-- Lines 6 and 7 of SPI_RECEIVE leave the channel of a frame that found RXNE = 0 and OVR = 0 at rest (R141). -/
theorem Channel.idled_received (hrxne : cc.rxne = false) (hovr : cc.ovr = false) (v rx : Half) :
    cc.Idled (cc.exchanged v rx).polled.afterDataRead where
  ctrl1 := rfl
  ctrl2 := rfl
  rxne := rfl
  txe := rfl
  ovr := by
    show ((cc.ovr || cc.rxne) && !cc.ovrArm) = false
    rw [hovr, hrxne]
    rfl
  bsy := rfl
  shiftActive := rfl

theorem drives_store {s : State} {mem : Memory} {hdr : Vector Half 2} (hrun : s.running f rest)
    (hop : f.op = .spiReceive ch count buf) (hl : f.line = 8)
    (hw : ∀ u : State, u.params = s.params → u.mem = s.mem → u.hdr = s.hdr →
      u.bufWrite buf f.idx.toNat f.tmp = some (u.withMem mem hdr)) :
    Drives [.seq] s ((s.withMem mem hdr).atPc (f.loop count 5 9 :: rest)) := by
  refine .of_exec hrun fun turns tick polls => ⟨polls, ?_⟩
  rw [exec_spiReceive_store (s := s.clocked turns tick polls) hrun hop hl, storeCell,
    hw (s.clocked turns tick polls) rfl rfl rfl]
  dsimp only
  rw [State.setTop_of_running (s := (s.clocked turns tick polls).withMem mem hdr) hrun]
  rfl

/-- One word of the loop: the dummy, the two link steps, the poll, the read and the cell (R141). -/
theorem drives_receiveWord {b : State} (w : State) (hrun : b.running f rest)
    (hentry : f.atLine (.spiReceive ch count buf) 5) (hc : b.chans[ch.toNat]? = some cc) (hready : cc.ready = true)
    (hrxne : cc.rxne = false) (hcell : (b.bufRead buf f.idx.toNat).isSome) :
    ∃ (mem : Memory) (hdr : Vector Half 2),
      Drives [.seq, .link ch.toNat, .link ch.toNat, .seq, .seq, .seq] (b.inWorld w)
          ((((b.withMem mem hdr).setChan ch.toNat
              (cc.exchanged 0#16 (w.answer ch.toNat cc.wide 0#16)).polled.afterDataRead).atPc
            ({ f.goto 8 with tmp := w.answer ch.toNat cc.wide 0#16 }.loop count 5 9 :: rest)).inWorld
              (w.wireFrame ch.toNat cc.wide 0#16))
        ∧ b.Stored buf f.idx.toNat [w.answer ch.toNat cc.wide 0#16] mem hdr := by
  obtain ⟨hop, hl⟩ := hentry
  obtain ⟨mem, hdr, hstored, hwrite⟩ := State.stored_of_cell hcell (w.answer ch.toNat cc.wide 0#16)
  refine ⟨mem, hdr, ?_, hstored⟩
  have hnext : f.next.next.next = f.goto 8 := congrArg (·.next.next) (Frame.next_eq_goto hl)
  have htxe : cc.txe = true := (cc.ready_iff.mp hready).2.1
  have hzero : 0#16 &&& cc.mask = 0#16 := BitVec.zero_and
  generalize hrx : w.answer ch.toNat cc.wide 0#16 = rx at hwrite ⊢
  have hread : (cc.exchanged 0#16 rx).polled.readValue .data = rx := by
    show (if cc.rxne then cc.rxbuf else rx) = rx
    rw [hrxne]
    rfl
  have hc₁ := State.getElem?_setChan hc (cc.afterDataWrite 0#16)
  have hc₂ := State.getElem?_setChan hc₁ (cc.exchanged 0#16 rx)
  have hc₃ := State.getElem?_setChan hc₂ (cc.exchanged 0#16 rx).polled
  have hdummy := drives_dataWrite (s := b.inWorld w) hrun (g := f.next)
    (fun u hu => exec_spiReceive_dummy hu hop hl) hc htxe
  have hlink := drives_exchange (b := (b.setChan ch.toNat (cc.afterDataWrite 0#16)).atPc (f.next :: rest)) w hready hc₁
  rw [hzero, hrx] at hlink
  have hpoll := drives_wait
    (s := (((b.setChan ch.toNat (cc.afterDataWrite 0#16)).setChan ch.toNat (cc.exchanged 0#16 rx)).atPc
      (f.next :: rest)).inWorld (w.wireFrame ch.toNat cc.wide 0#16)) (rest := rest) (f := f.next) ⟨hrun.1, rfl⟩ (c := ch)
    (fl := .rxne) (v := true) (by simp [waits, hop, hl]) hc₂ rfl
  have hdata := drives_regRead (r := .data)
    (s := ((((b.setChan ch.toNat (cc.afterDataWrite 0#16)).setChan ch.toNat (cc.exchanged 0#16 rx)).setChan ch.toNat
      (cc.exchanged 0#16 rx).polled).atPc (f.next.next :: rest)).inWorld (w.wireFrame ch.toNat cc.wide 0#16))
    (rest := rest) ⟨hrun.1, rfl⟩ (fun u hu => exec_spiReceive_readData hu hop (by simp [hl])) hc₃
  rw [hread] at hdata
  have hstore := drives_store (ch := ch) (count := count) (buf := buf) (mem := mem) (hdr := hdr)
    (s := (((((b.setChan ch.toNat (cc.afterDataWrite 0#16)).setChan ch.toNat (cc.exchanged 0#16 rx)).setChan ch.toNat
      (cc.exchanged 0#16 rx).polled).setChan ch.toNat (cc.exchanged 0#16 rx).polled.afterDataRead).atPc
      ({ f.next.next.next with tmp := rx } :: rest)).inWorld (w.wireFrame ch.toNat cc.wide 0#16)) (rest := rest)
    ⟨hrun.1, rfl⟩ hop (by simp [hl]) hwrite
  have hall := hdummy.trans (hlink.trans (hpoll.trans (hdata.trans hstore)))
  simp only [State.setChan_setChan] at hall
  rw [← hnext]
  exact hall

/-- The loop of SPI_RECEIVE, by induction on the words left. -/
theorem drives_receiveLoop : ∀ (n : Nat) {b : State} (w : State) {f : Frame} {cc : Channel},
    b.running f rest → f.atLine (.spiReceive ch count buf) 5 → b.chans[ch.toNat]? = some cc → cc.ready = true →
    cc.rxne = false → cc.ovr = false → f.idx.toNat + (n + 1) = count.toNat →
    (∀ k, k < n + 1 → (b.bufRead buf (f.idx.toNat + k)).isSome) →
    ∃ (g : Frame) (cc' : Channel) (mem : Memory) (hdr : Vector Half 2),
      Drives (List.replicate (n + 1) [Turn.seq, .link ch.toNat, .link ch.toNat, .seq, .seq, .seq]).flatten
          (b.inWorld w)
          ((((b.withMem mem hdr).setChan ch.toNat cc').atPc (g :: rest)).inWorld
            (w.wireFrames ch.toNat cc.wide (List.replicate (n + 1) 0#16)))
        ∧ g.atLine (.spiReceive ch count buf) 9 ∧ cc.Idled cc'
        ∧ b.Stored buf f.idx.toNat (w.answers ch.toNat cc.wide (List.replicate (n + 1) 0#16)) mem hdr
  | 0, b, w, f, cc, hrun, hentry, hc, hready, hrxne, hovr, hleft, hcells => by
    obtain ⟨mem, hdr, hword, hstored⟩ := drives_receiveWord w hrun hentry hc hready hrxne (hcells 0 (by simp))
    rw [Frame.loop_done (f := { f.goto 8 with tmp := _ }) hleft] at hword
    exact ⟨Frame.goto { f.goto 8 with tmp := w.answer ch.toNat cc.wide 0#16 } 9,
      (cc.exchanged 0#16 (w.answer ch.toNat cc.wide 0#16)).polled.afterDataRead, mem, hdr, hword, ⟨hentry.1, rfl⟩,
      Channel.idled_received hrxne hovr _ _, hstored⟩
  | n + 1, b, w, f, cc, hrun, hentry, hc, hready, hrxne, hovr, hleft, hcells => by
    obtain ⟨mem₁, hdr₁, hword, hstored⟩ := drives_receiveWord w hrun hentry hc hready hrxne (hcells 0 (by simp))
    have hagain : f.idx.toNat + 1 < count.toNat := by omega
    rw [Frame.loop_again (f := { f.goto 8 with tmp := _ }) hagain] at hword
    have hidx : (f.idx + 1#16).toNat = f.idx.toNat + 1 := toNat_next_idx hagain
    have hidled := Channel.idled_received hrxne hovr 0#16 (w.answer ch.toNat cc.wide 0#16)
    obtain ⟨g, cc', mem, hdr, hloop, hg, hrest, hstored'⟩ := drives_receiveLoop n
      (b := ((b.withMem mem₁ hdr₁).setChan ch.toNat
        (cc.exchanged 0#16 (w.answer ch.toNat cc.wide 0#16)).polled.afterDataRead).atPc
          ({ { f.goto 8 with tmp := w.answer ch.toNat cc.wide 0#16 }.goto 5 with idx := f.idx + 1#16 } :: rest))
      (w.wireFrame ch.toNat cc.wide 0#16) ⟨hrun.1, rfl⟩ ⟨hentry.1, rfl⟩ (State.getElem?_setChan hc _)
      (hidled.ready hready) hidled.rxne hidled.ovr (by rw [hidx]; omega)
      (fun k hk => by
        rw [hidx]
        have hkept := hstored.others buf (f.idx.toNat + 1 + k) (.inr (.inr (by simp)))
        have hsome := hcells (k + 1) (by omega)
        rw [show f.idx.toNat + (k + 1) = f.idx.toNat + 1 + k by omega, ← hkept] at hsome
        exact hsome)
    refine ⟨g, cc', mem, hdr, ?_, hg, hidled.trans hrest, 
      hstored.cons hstored' hidx (fun _ _ => rfl) fun _ _ => rfl⟩
    rw [← State.setChan_setChan (b.withMem mem hdr) ch.toNat
      (cc.exchanged 0#16 (w.answer ch.toNat cc.wide 0#16)).polled.afterDataRead]
    exact hword.trans hloop

/-- SPI_RECEIVE on the eager schedule (R142): the frames that send 0, their words in the buffer's cells, and the channel
at rest. -/
theorem drives_receive {b : State} (w : State) (hrun : b.running f rest)
    (hentry : f.atLine (.spiReceive ch count buf) 1) (hch : ch.toNat < b.params.nCh) (hcount : count ≠ 0#16)
    (hbuf : buf ≠ 0#32) (hc : b.chans[ch.toNat]? = some cc) (hready : cc.ready = true) (hrxne : cc.rxne = false)
    (hovr : cc.ovr = false) (hcells : b.hasCells buf count.toNat) :
    ∃ (cc' : Channel) (mem : Memory) (hdr : Vector Half 2),
      Drives (receiveTurns ch.toNat count.toNat) (b.inWorld w)
          ((((b.withMem mem hdr).setChan ch.toNat cc').returned rest).inWorld
            (w.wireFrames ch.toNat cc.wide (List.replicate count.toNat 0#16)))
        ∧ cc.Idled cc'
        ∧ b.Stored buf 0 (w.answers ch.toNat cc.wide (List.replicate count.toNat 0#16)) mem hdr := by
  obtain ⟨hop, hl⟩ := hentry
  have hbegin := drives_entry (s := b.inWorld w) hrun (.inr hop) hl hch hcount hbuf hc hready
  obtain ⟨n, hn⟩ : ∃ n, count.toNat = n + 1 :=
    Nat.exists_eq_add_one_of_ne_zero fun h => hcount (BitVec.eq_of_toNat_eq h)
  obtain ⟨g, cc', mem, hdr, hloop, hg, hidled, hstored⟩ := drives_receiveLoop (ch := ch) (count := count) (buf := buf)
    (rest := rest) n (b := b.atPc ({ f.goto 5 with idx := 0#16 } :: rest)) w ⟨hrun.1, rfl⟩ ⟨hop, rfl⟩ hc hready hrxne
    hovr ((Nat.zero_add _).trans hn.symm)
    (fun k hk => (congrArg (fun j => (b.bufRead buf j).isSome) (Nat.zero_add k)).trans (hcells k (hn ▸ hk)))
  have hreturn := drives_return
    (s := (((b.withMem mem hdr).setChan ch.toNat cc').atPc (g :: rest)).inWorld
      (w.wireFrames ch.toNat cc.wide (List.replicate (n + 1) 0#16))) (rest := rest) ⟨hrun.1, rfl⟩
    (fun u hu => exec_spiReceive_return hu hg.1 hg.2)
  rw [hn]
  exact ⟨cc', mem, hdr, hbegin.trans (hloop.trans hreturn), hidled, hstored.cells, hstored.others⟩

end Receive

end Sys2Proof.Machine
end

section
/-! The accelerometer operations on the eager schedule: a chip-select operation, ACC_WRITE and ACC_READ as one
transaction on the wire (`transaction`). -/

namespace Sys2Proof.Machine

/-! Lines of the accelerometer operations -/

/-- A usable address passes the header line (R161). -/
theorem headerLine_usable {addr : Byte} (h : addr.toNat ≤ 0x3F) (hdr : Byte) (s : State) (f : Frame) :
    headerLine addr hdr f s = .next ((s.setHdr 0 hdr.toHalf).setTop f.next) :=
  if_pos (decide_eq_true (BitVec.le_def.mpr h))

section Line

variable {s : State} {f : Frame} {rest : List Frame} (hrun : s.running f rest)

include hrun

/-- A line of the call graph calls (R117, R160). -/
theorem exec_of_calls {i : Instr} (h : calls s.params f i = true) : exec f.op s = .next (s.call i) := by
  unfold calls at h
  split at h
  case h_1 hop =>
    simp only [Bool.or_eq_true, Bool.and_eq_true, beq_iff_eq] at h
    rw [hop, exec, execAccInit, operation_of_running hrun]
    rcases h with (⟨hl, rfl⟩ | ⟨hl, rfl⟩) | ⟨hl, rfl⟩ <;> simp only [hl] <;> rfl
  case h_2 hop =>
    simp only [Bool.or_eq_true, Bool.and_eq_true, beq_iff_eq] at h
    rw [hop, exec, execAccWrite, operation_of_running hrun]
    rcases h with (⟨hl, rfl⟩ | ⟨hl, rfl⟩) | ⟨hl, rfl⟩ <;> simp only [hl]
  case h_3 hop =>
    simp only [Bool.or_eq_true, Bool.and_eq_true, beq_iff_eq] at h
    rw [hop, exec, execAccRead, operation_of_running hrun]
    rcases h with ((⟨hl, rfl⟩ | ⟨hl, rfl⟩) | ⟨hl, rfl⟩) | ⟨hl, rfl⟩ <;> simp only [hl]
  case h_4 => cases h

theorem drives_call {i : Instr} (h : calls s.params f i = true) :
    Drives [.seq] s (s.atPc (Frame.start i :: f :: rest)) := by
  refine .of_exec hrun fun turns tick polls => ⟨polls, ?_⟩
  have hpc : (s.clocked turns tick polls).pc = f :: rest := hrun.2
  rw [exec_of_calls (s := s.clocked turns tick polls) hrun h, State.call, hpc]
  rfl

/-- A line that writes a cell of HDR (R165, R171). -/
theorem drives_hdr {i : Nat} {v : Half}
    (hx : ∀ u : State, u.running f rest → exec f.op u = .next ((u.setHdr i v).setTop f.next)) :
    Drives [.seq] s ((s.setHdr i v).atPc (f.next :: rest)) := by
  refine .of_exec hrun fun turns tick polls => ⟨polls, ?_⟩
  rw [hx (s.clocked turns tick polls) hrun, State.setTop_of_running (s := (s.clocked turns tick polls).setHdr i v) hrun]
  rfl

theorem exec_accInit_mark {ch port pin : Byte} (hop : f.op = .accInit ch port pin) (hl : f.line = 4) :
    exec f.op s = .next ((s.setInit ⟨ch, port, pin⟩).setTop f.next) := by
  rw [hop, exec, execAccInit, operation_of_running hrun]
  simp only [hl]

theorem exec_accInit_return {ch port pin : Byte} (hop : f.op = .accInit ch port pin) (hl : f.line = 5) :
    exec f.op s = .next s.ret := by
  rw [hop, exec, execAccInit, operation_of_running hrun]
  simp only [hl]

theorem exec_accWrite_header {ch port pin addr value : Byte} (hop : f.op = .accWrite ch port pin addr value)
    (hl : f.line = 1) (haddr : addr.toNat ≤ 0x3F) :
    exec f.op s = .next ((s.setHdr 0 (writeHeader addr).toHalf).setTop f.next) := by
  rw [hop, exec, execAccWrite, operation_of_running hrun]
  simp only [hl, headerLine_usable haddr]

theorem exec_accWrite_value {ch port pin addr value : Byte} (hop : f.op = .accWrite ch port pin addr value)
    (hl : f.line = 2) : exec f.op s = .next ((s.setHdr 1 value.toHalf).setTop f.next) := by
  rw [hop, exec, execAccWrite, operation_of_running hrun]
  simp only [hl]

theorem exec_accWrite_return {ch port pin addr value : Byte} (hop : f.op = .accWrite ch port pin addr value)
    (hl : f.line = 6) : exec f.op s = .next s.ret := by
  rw [hop, exec, execAccWrite, operation_of_running hrun]
  simp only [hl]

theorem exec_accRead_header {ch port pin addr : Byte} {count : Half} {buf : Word}
    (hop : f.op = .accRead ch port pin addr count buf) (hl : f.line = 1) (haddr : addr.toNat ≤ 0x3F) :
    exec f.op s = .next ((s.setHdr 0 (readHeader addr).toHalf).setTop f.next) := by
  rw [hop, exec, execAccRead, operation_of_running hrun]
  simp only [hl, headerLine_usable haddr]

theorem exec_accRead_return {ch port pin addr : Byte} {count : Half} {buf : Word}
    (hop : f.op = .accRead ch port pin addr count buf) (hl : f.line = 6) : exec f.op s = .next s.ret := by
  rw [hop, exec, execAccRead, operation_of_running hrun]
  simp only [hl]

theorem exec_chipSelect {level : Bool} {port pin : Byte}
    (hop : f.op = if level then .csDeassert port pin else .csAssert port pin) :
    exec f.op s = chipSelect level port pin f s := by
  rw [hop]
  cases level <;> exact operation_of_running hrun

/-- CS_ASSERT and CS_DEASSERT of a pin there is, from line 1 to the return (R162, R163). -/
theorem drives_chipSelect {level : Bool} {port pin : Byte}
    (hop : f.op = if level then .csDeassert port pin else .csAssert port pin) (hl : f.line = 1)
    (hport : port.toNat < 5) (hpin : pin.toNat < s.params.pinMaxOf port.toNat) :
    Drives (List.replicate 4 .seq) s ((s.pinWrite port pin level).returned rest) := by
  have hportOk : contract s f.op f.line f.cfg = some (true, 5#8, port.toWord) := by
    cases level <;> simp [contract, hop, hl, hport]
  have hpinOk : contract s f.next.op f.next.line f.cfg = some (true, 6#8, pin.toWord) := by
    cases level <;> simp [contract, hop, hl, hpin]
  have hrun₂ : (s.atPc (f.next.next :: rest)).running f.next.next rest := ⟨hrun.1, rfl⟩
  have hrun₃ : ((s.pinWrite port pin level).atPc (f.next.next.next :: rest)).running f.next.next.next rest :=
    ⟨hrun.1, rfl⟩
  have hdrive : Drives [.seq] (s.atPc (f.next.next :: rest))
      ((s.pinWrite port pin level).atPc (f.next.next.next :: rest)) := by
    refine .of_exec hrun₂ fun turns tick polls => ⟨polls, ?_⟩
    rw [exec_chipSelect (s := (s.atPc (f.next.next :: rest)).clocked turns tick polls) hrun₂ hop]
    simp only [chipSelect, Frame.next_line, hl]
    rfl
  have hreturn := drives_return hrun₃ fun u hu => by
    rw [exec_chipSelect hu hop]
    simp only [chipSelect, Frame.next_line, hl]
  exact (drives_assertion hrun hportOk).trans
    ((drives_assertion (s := s.atPc (f.next :: rest)) ⟨hrun.1, rfl⟩ hpinOk).trans (hdrive.trans hreturn))

end Line

/-! One transaction (R166, R172) -/

/-- The chip-select going low, frames of 8 bits, and the chip-select going high. -/
def State.transaction (w : State) (c : Nat) (port pin : Byte) (words : List Half) : State :=
  ((w.pinWrite port pin false).wireFrames c false words).pinWrite port pin true

/-- What ACC_WRITE and ACC_READ need of the state: legal parameters, identifiers in range, and an 8-bit channel ready to
send (R166, R172). -/
structure State.SessionReady (s : State) (ch port pin : Byte) (cc : Channel) : Prop where
  legal : s.params.legal = true
  ch_lt : ch.toNat < s.params.nCh
  port_lt : port.toNat < 5
  pin_lt : pin.toNat < s.params.pinMaxOf port.toNat
  chan : s.chans[ch.toNat]? = some cc
  ready : cc.ready = true
  narrow : cc.wide = false

theorem Params.hdrRef_ne_zero {p : Params} (h : p.legal = true) : p.hdrRef ≠ 0#32 := by
  simp only [Params.legal, Bool.and_eq_true, bne_iff_ne] at h
  exact h.2

theorem Params.pinMaxOf_le {p : Params} (h : p.legal = true) (port : Nat) : p.pinMaxOf port ≤ 16 := by
  simp only [Params.legal, Bool.and_eq_true, List.all_eq_true, decide_eq_true_eq] at h
  obtain ⟨⟨-, hpins⟩, -⟩ := h
  unfold Params.pinMaxOf
  cases hport : p.pinMax[port]? with
  | none => simp
  | some n => exact (hpins n (by simpa using Vector.mem_of_getElem? hport)).2

theorem toHalf_masked : ∀ b : Byte, b.toHalf &&& 0x00FF#16 = b.toHalf := by
  decide

theorem Channel.mask_of_narrow {ch : Channel} (h : ch.wide = false) : ch.mask = 0x00FF#16 := by
  simp [Channel.mask, h]

/-- The cells of HDR that the lines before have written (R64, R165). -/
theorem State.firstCells_hdr (s : State) (h v : Half) :
    ((s.setHdr 0 h).setHdr 1 v).firstCells s.params.hdrRef 2 [h, v] := by
  refine ⟨rfl, fun i hi => ?_⟩
  have hcases : i = 0 ∨ i = 1 := by omega
  rcases hcases with rfl | rfl <;> simp [State.bufRead]

theorem State.firstCells_hdr_zero (s : State) (h : Half) : (s.setHdr 0 h).firstCells s.params.hdrRef 1 [h] := by
  refine ⟨rfl, fun i hi => ?_⟩
  obtain rfl : i = 0 := by omega
  simp [State.bufRead]

/-- A session stays ready where the parameters stay and the channel is put back idle. -/
theorem State.SessionReady.of_idled {s t : State} {ch port pin : Byte} {cc cc' : Channel}
    (h : s.SessionReady ch port pin cc) (hparams : t.params = s.params) (hchan : t.chans[ch.toNat]? = some cc')
    (hidled : cc.Idled cc') : t.SessionReady ch port pin cc' where
  legal := hparams ▸ h.legal
  ch_lt := hparams ▸ h.ch_lt
  port_lt := h.port_lt
  pin_lt := hparams ▸ h.pin_lt
  chan := hchan
  ready := hidled.ready h.ready
  narrow := (Channel.wide_of_ctrl1 hidled.ctrl1).trans h.narrow

theorem State.SessionReady.congr {s t : State} {ch port pin : Byte} {cc : Channel} (h : s.SessionReady ch port pin cc)
    (hparams : t.params = s.params) (hchans : t.chans = s.chans) : t.SessionReady ch port pin cc :=
  { h with
    legal := hparams ▸ h.legal
    ch_lt := hparams ▸ h.ch_lt
    pin_lt := hparams ▸ h.pin_lt
    chan := hchans ▸ h.chan }

/-- The cells of HDR are there whatever they hold (R64). -/
theorem State.hasCells_setHdr {s : State} {ref : Word} {n : Nat} (h : s.hasCells ref n) (i : Nat) (v : Half) :
    (s.setHdr i v).hasCells ref n := by
  intro k hk
  have hsome := h k hk
  unfold State.bufRead at hsome ⊢
  by_cases href : ref = s.params.hdrRef
  · simpa [href] using hsome
  · simpa [href] using hsome

section Called

variable {b : State} (w : State) {g : Frame} {rest : List Frame} {ch port pin : Byte} {cc : Channel}
  (hready : b.SessionReady ch port pin cc) (hrun : b.running g rest)

include hready hrun

/-- A call of a chip-select operation, to its return. -/
theorem drives_calledChipSelect (level : Bool)
    (hcall : calls b.params g (if level then .csDeassert port pin else .csAssert port pin) = true) :
    Drives (List.replicate 5 .seq) (b.inWorld w)
      ((b.atPc (g.next :: rest)).inWorld (w.pinWrite port pin level)) := by
  have hbody := drives_chipSelect (level := level) (port := port) (pin := pin)
    (s := (b.atPc (Frame.start (if level then .csDeassert port pin else .csAssert port pin) :: g :: rest)).inWorld w)
    (rest := g :: rest) ⟨hrun.1, rfl⟩ rfl rfl hready.port_lt hready.pin_lt
  exact (drives_call (s := b.inWorld w) hrun hcall).trans hbody

/-- A call of SPI_TRANSFER of cells of HDR, to its return. -/
theorem drives_calledTransfer {count : Half} {cells : List Half} (hcount : count ≠ 0#16)
    (hcall : calls b.params g (.spiTransfer ch count b.params.hdrRef) = true)
    (hcells : b.firstCells b.params.hdrRef count.toNat cells) (hbytes : cells.map (· &&& 0x00FF#16) = cells) :
    ∃ cc' : Channel,
      Drives (.seq :: transferTurns ch.toNat count.toNat) (b.inWorld w)
          (((b.setChan ch.toNat cc').atPc (g.next :: rest)).inWorld (w.wireFrames ch.toNat false cells))
        ∧ cc.Idled cc' := by
  obtain ⟨cc', hbody, hidled, -, -⟩ := drives_transfer (cells := cells)
    (b := b.atPc (Frame.start (.spiTransfer ch count b.params.hdrRef) :: g :: rest)) w (rest := g :: rest)
    ⟨hrun.1, rfl⟩ ⟨rfl, rfl⟩ hready.ch_lt hcount (Params.hdrRef_ne_zero hready.legal) hready.chan hready.ready hcells
  rw [Channel.mask_of_narrow hready.narrow, hready.narrow, hbytes] at hbody
  exact ⟨cc', (drives_call (s := b.inWorld w) hrun hcall).trans hbody, hidled⟩

/-- A call of SPI_RECEIVE on a channel at rest, to its return. -/
theorem drives_calledReceive {count : Half} {buf : Word} (hcount : count ≠ 0#16) (hbuf : buf ≠ 0#32)
    (hcall : calls b.params g (.spiReceive ch count buf) = true) (hrxne : cc.rxne = false) (hovr : cc.ovr = false)
    (hcells : b.hasCells buf count.toNat) :
    ∃ (cc' : Channel) (mem : Memory) (hdr : Vector Half 2),
      Drives (.seq :: receiveTurns ch.toNat count.toNat) (b.inWorld w)
          ((((b.withMem mem hdr).setChan ch.toNat cc').atPc (g.next :: rest)).inWorld
            (w.wireFrames ch.toNat false (List.replicate count.toNat 0#16)))
        ∧ cc.Idled cc'
        ∧ b.Stored buf 0 (w.answers ch.toNat false (List.replicate count.toNat 0#16)) mem hdr := by
  obtain ⟨cc', mem, hdr, hbody, hidled, hstored⟩ := drives_receive
    (b := b.atPc (Frame.start (.spiReceive ch count buf) :: g :: rest)) w (rest := g :: rest)
    ⟨hrun.1, rfl⟩ ⟨rfl, rfl⟩ hready.ch_lt hcount hbuf hready.chan hready.ready hrxne hovr hcells
  rw [hready.narrow] at hbody hstored
  exact ⟨cc', mem, hdr, (drives_call (s := b.inWorld w) hrun hcall).trans hbody, hidled, hstored.cells, hstored.others⟩

end Called

section Transaction

variable {b : State} (w : State) {f : Frame} {rest : List Frame} {ch port pin addr value : Byte} {count : Half}
  {buf : Word} {cc : Channel} (hready : b.SessionReady ch port pin cc) (hrun : b.running f rest)
  (haddr : addr.toNat ≤ 0x3F)

include hready hrun haddr

/-- ACC_WRITE on the eager schedule (R165, R166): one transaction of the header and the value. -/
theorem drives_accWrite (hentry : f.atLine (.accWrite ch port pin addr value) 1) :
    ∃ cc' : Channel,
      Drives (accWriteTurns ch.toNat) (b.inWorld w)
          (((((b.setHdr 0 (writeHeader addr).toHalf).setHdr 1 value.toHalf).setChan ch.toNat cc').returned rest).inWorld
            (w.transaction ch.toNat port pin [(writeHeader addr).toHalf, value.toHalf]))
        ∧ cc.Idled cc' := by
  obtain ⟨hop, hl⟩ := hentry
  have hheader := drives_hdr (s := b.inWorld w) hrun fun u hu => exec_accWrite_header hu hop hl haddr
  have hvalue := drives_hdr (s := ((b.setHdr 0 (writeHeader addr).toHalf).atPc (f.next :: rest)).inWorld w)
    (f := f.next) (rest := rest) ⟨hrun.1, rfl⟩ fun u hu => exec_accWrite_value hu hop (by simp [hl])
  have hcells := b.firstCells_hdr (writeHeader addr).toHalf value.toHalf
  have hrun₃ : (((b.setHdr 0 (writeHeader addr).toHalf).setHdr 1 value.toHalf).atPc (f.next.next :: rest)).running
      f.next.next rest := ⟨hrun.1, rfl⟩
  have hready₃ : (((b.setHdr 0 (writeHeader addr).toHalf).setHdr 1 value.toHalf).atPc
      (f.next.next :: rest)).SessionReady ch port pin cc := hready.congr rfl rfl
  have hassert := drives_calledChipSelect w hready₃ hrun₃ false (by simp [calls, hop, hl])
  obtain ⟨cc', htransfer, hidled⟩ := drives_calledTransfer
    (b := ((b.setHdr 0 (writeHeader addr).toHalf).setHdr 1 value.toHalf).atPc (f.next.next.next :: rest))
    (w.pinWrite port pin false) (hready.congr rfl rfl) (rest := rest) ⟨hrun.1, rfl⟩ (count := 2#16) (by decide)
    (by simp [calls, hop, hl, State.atPc]) hcells (by simp [toHalf_masked])
  have hdeassert := drives_calledChipSelect
    (b := (((b.setHdr 0 (writeHeader addr).toHalf).setHdr 1 value.toHalf).setChan ch.toNat cc').atPc
      (f.next.next.next.next :: rest))
    ((w.pinWrite port pin false).wireFrames ch.toNat false [(writeHeader addr).toHalf, value.toHalf])
    (hready.of_idled rfl (State.getElem?_setChan hready.chan cc') hidled) (rest := rest) ⟨hrun.1, rfl⟩ true
    (by simp [calls, hop, hl])
  have hreturn := drives_return
    (s := ((((b.setHdr 0 (writeHeader addr).toHalf).setHdr 1 value.toHalf).setChan ch.toNat cc').atPc
      (f.next.next.next.next.next :: rest)).inWorld
      (w.transaction ch.toNat port pin [(writeHeader addr).toHalf, value.toHalf])) (rest := rest) ⟨hrun.1, rfl⟩
    fun u hu => exec_accWrite_return hu hop (by simp [hl])
  exact ⟨cc', hheader.trans (hvalue.trans (hassert.trans (htransfer.trans (hdeassert.trans hreturn)))), hidled⟩

/-- ACC_READ on the eager schedule (R171, R172): one transaction of the header and `count` frames that send 0, whose words
stand in the buffer. -/
theorem drives_accRead (hentry : f.atLine (.accRead ch port pin addr count buf) 1) (hcount : count ≠ 0#16)
    (hbuf : buf ≠ 0#32) (hcells : b.hasCells buf count.toNat) :
    ∃ (cc' : Channel) (mem : Memory) (hdr : Vector Half 2),
      Drives (accReadTurns ch.toNat count.toNat) (b.inWorld w)
          ((((b.withMem mem hdr).setChan ch.toNat cc').returned rest).inWorld
            (w.transaction ch.toNat port pin ((readHeader addr).toHalf :: List.replicate count.toNat 0#16)))
        ∧ cc.Idled cc'
        ∧ (b.setHdr 0 (readHeader addr).toHalf).Stored buf 0
            (((w.pinWrite port pin false).wireFrame ch.toNat false (readHeader addr).toHalf).answers ch.toNat false
              (List.replicate count.toNat 0#16)) mem hdr := by
  obtain ⟨hop, hl⟩ := hentry
  have hheader := drives_hdr (s := b.inWorld w) hrun fun u hu => exec_accRead_header hu hop hl haddr
  have hassert := drives_calledChipSelect
    (b := (b.setHdr 0 (readHeader addr).toHalf).atPc (f.next :: rest)) w (hready.congr rfl rfl) (rest := rest)
    ⟨hrun.1, rfl⟩ false (by simp [calls, hop, hl])
  obtain ⟨cc₁, htransfer, hidled₁⟩ := drives_calledTransfer
    (b := (b.setHdr 0 (readHeader addr).toHalf).atPc (f.next.next :: rest)) (w.pinWrite port pin false)
    (hready.congr rfl rfl) (rest := rest) ⟨hrun.1, rfl⟩ (count := 1#16) (by decide)
    (by simp [calls, hop, hl, State.atPc]) (b.firstCells_hdr_zero (readHeader addr).toHalf) (by simp [toHalf_masked])
  have hready₁ : ((b.setHdr 0 (readHeader addr).toHalf).setChan ch.toNat cc₁).SessionReady ch port pin cc₁ :=
    hready.of_idled rfl (State.getElem?_setChan hready.chan cc₁) hidled₁
  obtain ⟨cc₂, mem, hdr, hreceive, hidled₂, hstored⟩ := drives_calledReceive
    (b := ((b.setHdr 0 (readHeader addr).toHalf).setChan ch.toNat cc₁).atPc (f.next.next.next :: rest))
    ((w.pinWrite port pin false).wireFrames ch.toNat false [(readHeader addr).toHalf]) (hready₁.congr rfl rfl)
    (rest := rest) ⟨hrun.1, rfl⟩ hcount hbuf (by simp [calls, hop, hl]) hidled₁.rxne hidled₁.ovr
    (State.hasCells_setHdr hcells 0 (readHeader addr).toHalf)
  have hready₂ : (((b.withMem mem hdr).setChan ch.toNat cc₁).setChan ch.toNat cc₂).SessionReady ch port pin cc₂ :=
    hready₁.of_idled rfl (State.getElem?_setChan hready₁.chan cc₂) hidled₂
  have hdeassert := drives_calledChipSelect
    (b := (((b.withMem mem hdr).setChan ch.toNat cc₁).setChan ch.toNat cc₂).atPc (f.next.next.next.next :: rest))
    ((w.pinWrite port pin false).wireFrames ch.toNat false
      ((readHeader addr).toHalf :: List.replicate count.toNat 0#16))
    (hready₂.congr rfl rfl) (rest := rest) ⟨hrun.1, rfl⟩ true (by simp [calls, hop, hl])
  have hreturn := drives_return
    (s := ((((b.withMem mem hdr).setChan ch.toNat cc₁).setChan ch.toNat cc₂).atPc
      (f.next.next.next.next.next :: rest)).inWorld
      (w.transaction ch.toNat port pin ((readHeader addr).toHalf :: List.replicate count.toNat 0#16))) (rest := rest)
    ⟨hrun.1, rfl⟩ fun u hu => exec_accRead_return hu hop (by simp [hl])
  refine ⟨cc₂, mem, hdr, ?_, hidled₁.trans hidled₂, hstored.cells, hstored.others⟩
  rw [← State.setChan_setChan (b.withMem mem hdr) ch.toNat cc₁]
  exact hheader.trans (hassert.trans (htransfer.trans (hreceive.trans (hdeassert.trans hreturn))))

end Transaction

end Sys2Proof.Machine
end

section
/-! O43, O44, O45: the TRACE, the pins and the devices after a transaction, and what a reference slave alone on the line
makes of it. -/

namespace Sys2Proof.Machine

/-! The TRACE and the pins after a transaction -/

theorem Drives.run {ts more : List Turn} {s t : State} (h : Drives ts s t) (hturns : s.turns = ts ++ more) :
    ∃ tick polls, Host.Core.run core ts.length s = .next (t.clocked more tick polls) := by
  have hs : s.clocked (ts ++ more) s.tick s.polls = s := by rw [← hturns]; rfl
  obtain ⟨tick, polls, hrun⟩ := h more s.tick s.polls
  rw [hs] at hrun
  exact ⟨tick, polls, hrun⟩

theorem State.transaction_trace (w : State) (c : Nat) (port pin : Byte) (words : List Half) :
    (w.transaction c port pin words).trace = w.trace ++ ([Event.cs port pin false]
      ++ framesOf c words ((w.pinWrite port pin false).answers c false words) ++ [Event.cs port pin true]) := by
  simp [State.transaction, State.wireFrames_trace]

/-- The four events of a transaction of two words (R166). -/
theorem State.transaction_trace_pair (w : State) (c : Nat) (port pin : Byte) (tx₀ tx₁ : Half) : ∃ r₀ r₁,
    (w.transaction c port pin [tx₀, tx₁]).trace
      = w.trace ++ [Event.cs port pin false, Event.frame c tx₀ r₀, Event.frame c tx₁ r₁, Event.cs port pin true] :=
  ⟨_, _, w.transaction_trace c port pin [tx₀, tx₁]⟩

/-- A pin there is has the level driven (R162, R163). -/
theorem State.pin_pinWrite_same (s : State) {port pin : Byte} (hport : port.toNat < 5) (hpin : pin.toNat < 16)
    (level : Bool) : (s.pinWrite port pin level).pin port.toNat pin.toNat = level := by
  simp [State.pin, setPinLatch, hport, hpin]

theorem State.pin_pinWrite_other (s : State) {port pin : Byte} (level : Bool) {p n : Nat}
    (h : (p, n) ≠ (port.toNat, pin.toNat)) : (s.pinWrite port pin level).pin p n = s.pin p n := by
  simp only [State.pin, State.pinWrite_pins, setPinLatch]
  split
  · rename_i row hrow
    by_cases hp : port.toNat = p
    · subst hp
      have hn : pin.toNat ≠ n := fun hn => h (by rw [hn])
      obtain ⟨hlt, rfl⟩ := Vector.getElem?_eq_some_iff.mp hrow
      simp [hlt, Vector.getElem?_setIfInBounds_ne hn]
    · rw [Vector.getElem?_setIfInBounds_ne hp]
  · rfl

theorem State.pin_wireFrames (s : State) (c : Nat) (wide : Bool) (txs : List Half) (p n : Nat) :
    (s.wireFrames c wide txs).pin p n = s.pin p n := by
  simp only [State.pin, State.wireFrames_pins]

theorem State.transaction_pin_same (w : State) (c : Nat) {port pin : Byte} (hport : port.toNat < 5)
    (hpin : pin.toNat < 16) (words : List Half) :
    (w.transaction c port pin words).pin port.toNat pin.toNat = true :=
  State.pin_pinWrite_same _ hport hpin true

theorem State.transaction_pin_other (w : State) (c : Nat) {port pin : Byte} (words : List Half) {p n : Nat}
    (h : (p, n) ≠ (port.toNat, pin.toNat)) : (w.transaction c port pin words).pin p n = w.pin p n := by
  rw [State.transaction, State.pin_pinWrite_other _ _ h, State.pin_wireFrames, State.pin_pinWrite_other _ _ h]

theorem State.SessionReady.pin_lt_16 {s : State} {ch port pin : Byte} {cc : Channel} (h : s.SessionReady ch port pin cc) :
    pin.toNat < 16 :=
  Nat.lt_of_lt_of_le h.pin_lt (Params.pinMaxOf_le h.legal _)

/-- Settles O43: `drives_accWrite`, its transaction read off the TRACE and the pins. -/
theorem accWriteEmitsOneTransaction : Obligations.AccWriteEmitsOneTransaction := by
  intro s f rest ch port pin addr value cc more hrun hentry hlegal hch hport hpin haddr hc hcready hnarrow hturns
  have hready : s.SessionReady ch port pin cc := ⟨hlegal, hch, hport, hpin, hc, hcready, hnarrow⟩
  obtain ⟨cc', hdrives, hidled⟩ := drives_accWrite s hready hrun haddr hentry
  obtain ⟨tick, polls, hx⟩ := hdrives.run (s := s) hturns
  have hreturned : (((s.setHdr 0 (writeHeader addr).toHalf).setHdr 1 value.toHalf).setChan ch.toNat cc').mode = .run :=
    hrun.1
  obtain ⟨r₀, r₁, htrace⟩ := s.transaction_trace_pair ch.toNat port pin (writeHeader addr).toHalf value.toHalf
  exact ⟨_, r₀, r₁, cc', hx, State.returned_returnedTo hreturned, htrace,
    State.transaction_pin_same s ch.toNat hport hready.pin_lt_16 _,
    fun p n h => State.transaction_pin_other s ch.toNat _ h, rfl, hidled.statusWord, hidled.ctrl1, hidled.ctrl2,
    hidled.shiftActive, rfl, rfl, rfl⟩

/-! A reference slave alone on the line (R199 to R201) -/

/-- The slave when its chip-select has gone low: the next frame is a header (R199). -/
def RefSlave.waiting (r : RefSlave) : RefSlave := { r with phase := .header }

/-- The slave after 8-bit frames that send these words. -/
def RefSlave.frames8 (r : RefSlave) (txs : List Half) : RefSlave := txs.foldl (fun r tx => r.frame8 tx.lowByte) r

theorem State.wireFrame_devices {s : State} {c : Nat} {d : Device} (hd : s.devices = [d])
    (hsel : s.selected c d = true) (tx : Half) :
    (s.wireFrame c false tx).devices = [{ d with slave := d.slave.frame8 tx.lowByte }] := by
  simp [State.wireFrame, hd, Device.hearFrame_selected hsel]

theorem State.wireFrames_devices {c : Nat} : ∀ (txs : List Half) {s : State} {d : Device}, s.devices = [d] →
    s.selected c d = true → (s.wireFrames c false txs).devices = [{ d with slave := d.slave.frames8 txs }]
  | [], _, _, hd, _ => hd
  | tx :: txs, _, _, hd, hsel => State.wireFrames_devices txs (State.wireFrame_devices hd hsel tx) hsel

/-- The device's own line going low selects it and has it wait for a header (R196, R199). -/
theorem State.pinWrite_selects {w : State} {d : Device} (hd : w.devices = [d]) :
    (w.pinWrite d.port d.pin false).devices = [{ d with slave := d.slave.waiting }]
      ∧ (w.pinWrite d.port d.pin false).selected d.chan { d with slave := d.slave.waiting } = true := by
  refine ⟨?_, ?_⟩
  · simp [hd, Device.hearPin]
    rfl
  · simp [State.selected, State.pin_pinWrite_low]

theorem State.transaction_devices {w : State} {d : Device} (hd : w.devices = [d]) (words : List Half) :
    (w.transaction d.chan d.port d.pin words).devices = [{ d with slave := d.slave.waiting.frames8 words }] := by
  obtain ⟨hwaits, hsel⟩ := State.pinWrite_selects hd
  simp [State.transaction, State.wireFrames_devices words hwaits hsel, Device.hearPin]

/-- A header and a value write one register, but for 0x00 (R199, R200). -/
theorem RefSlave.frames8_write (r : RefSlave) {a : BitVec 6} (ha : a ≠ 0#6) (v : Byte) :
    (r.waiting.frames8 [(headerByte false true a).toHalf, v.toHalf]).reg = r.reg.setIfInBounds a.toNat v := by
  simp only [RefSlave.frames8, List.foldl, lowByte_toHalf, RefSlave.frame8_header (r := r.waiting) rfl]
  simp only [RefSlave.frame8, if_neg ha]
  rfl

/-- Frames in the read phase keep the registers and the phase (R201). -/
theorem RefSlave.frames8_read : ∀ (txs : List Half) {r : RefSlave}, r.phase = .read → (r.frames8 txs).reg = r.reg
  | [], _, _ => rfl
  | tx :: txs, r, h => by
    have hframe : r.frame8 tx.lowByte = r.advanced := by simp only [RefSlave.frame8, h]
    have hrest := RefSlave.frames8_read txs (r := r.advanced) h
    simp only [RefSlave.frames8, List.foldl, hframe] at hrest ⊢
    exact hrest

theorem State.answer_read {s : State} {c : Nat} {d : Device} (hd : s.devices = [d]) (hsel : s.selected c d = true)
    (hphase : d.slave.phase = .read) (tx : Half) :
    some (s.answer c false tx) = (d.slave.reg[d.slave.ptr.toNat]?).map Byte.toHalf := by
  have hlisten : s.listeners c = [d] := by simp [State.listeners, hd, hsel]
  have hptr : d.slave.ptr.toNat < 64 := d.slave.ptr.isLt
  simp only [State.answer, State.slaveAnswer, hlisten, hphase, frameMask]
  simp [hptr, toHalf_masked]

/-- A slave in its read phase answers its registers in turn from its pointer on, within six bits (R201). -/
theorem State.answers_read {c : Nat} : ∀ (n : Nat) {s : State} {d : Device}, s.devices = [d] →
    s.selected c d = true → d.slave.phase = .read → d.slave.mbf = true → ∀ k, k < n →
    (s.answers c false (List.replicate n 0#16))[k]?
      = (d.slave.reg[(d.slave.ptr.toNat + k) % 64]?).map Byte.toHalf
  | 0, _, _, _, _, _, _, k, hk => absurd hk (Nat.not_lt_zero k)
  | n + 1, s, d, hd, hsel, hphase, hmbf, k, hk => by
    have hptr : d.slave.ptr.toNat < 64 := d.slave.ptr.isLt
    cases k with
    | zero =>
      have hfirst : (d.slave.ptr.toNat + 0) % 64 = d.slave.ptr.toNat := Nat.mod_eq_of_lt hptr
      rw [hfirst]
      exact State.answer_read hd hsel hphase 0#16
    | succ k =>
      have hframe : d.slave.frame8 (Half.lowByte 0#16) = d.slave.advanced := by simp only [RefSlave.frame8, hphase]
      have hnext := State.wireFrame_devices hd hsel 0#16
      rw [hframe] at hnext
      have hadvanced : (d.slave.advanced.ptr.toNat + k) % 64 = (d.slave.ptr.toNat + (k + 1)) % 64 := by
        simp only [RefSlave.advanced, if_pos hmbf, BitVec.toNat_add, BitVec.toNat_ofNat]
        omega
      have hrest := State.answers_read n hnext hsel hphase hmbf k (by omega)
      rw [← hadvanced]
      exact hrest

/-! ACC_INIT -/

/-- A call of ACC_WRITE, to its return: one transaction, and the session as ready as before. -/
theorem drives_calledAccWrite {b : State} (w : State) {g : Frame} {rest : List Frame} {ch port pin addr value : Byte}
    {cc : Channel} (hready : b.SessionReady ch port pin cc) (hrun : b.running g rest) (haddr : addr.toNat ≤ 0x3F)
    (hcall : calls b.params g (.accWrite ch port pin addr value) = true) :
    ∃ (b' : State) (cc' : Channel),
      Drives (.seq :: accWriteTurns ch.toNat) (b.inWorld w)
          (b'.inWorld (w.transaction ch.toNat port pin [(writeHeader addr).toHalf, value.toHalf]))
        ∧ b'.SessionReady ch port pin cc' ∧ b'.running g.next rest ∧ b'.inits = b.inits := by
  obtain ⟨cc', hbody, hidled⟩ := drives_accWrite
    (b := b.atPc (Frame.start (.accWrite ch port pin addr value) :: g :: rest)) w (hready.congr rfl rfl)
    (rest := g :: rest) ⟨hrun.1, rfl⟩ haddr ⟨rfl, rfl⟩
  refine ⟨_, cc', (drives_call (s := b.inWorld w) hrun hcall).trans hbody, ?_, ⟨hrun.1, rfl⟩, rfl⟩
  exact hready.of_idled rfl (State.getElem?_setChan hready.chan cc') hidled

/-- Lines 4 and 5 of ACC_INIT: the session marked, and the return (R168). -/
theorem drives_accInitTail {s : State} {f : Frame} {rest : List Frame} {ch port pin : Byte} (hrun : s.running f rest)
    (hop : f.op = .accInit ch port pin) (hl : f.line = 4) :
    Drives [.seq, .seq] s ((s.setInit ⟨ch, port, pin⟩).returned rest) := by
  have hmark : Drives [.seq] s ((s.setInit ⟨ch, port, pin⟩).atPc (f.next :: rest)) := by
    refine .of_exec hrun fun turns tick polls => ⟨polls, ?_⟩
    rw [exec_accInit_mark (s := s.clocked turns tick polls) hrun hop hl,
      State.setTop_of_running (s := (s.clocked turns tick polls).setInit _) hrun]
    rfl
  have hreturn := drives_return (s := (s.setInit ⟨ch, port, pin⟩).atPc (f.next :: rest)) (rest := rest) ⟨hrun.1, rfl⟩
    fun u hu => exec_accInit_return hu hop (by simp [hl])
  exact hmark.trans hreturn

/-- The three transactions of ACC_INIT: data-format, and power-control twice (R168). -/
def State.initTransactions (w : State) (c : Nat) (port pin : Byte) : State :=
  ((w.transaction c port pin [0x0071#16, 0x0001#16]).transaction c port pin [0x006D#16, 0x0000#16]).transaction c port
    pin [0x006D#16, 0x0008#16]

/-- The twelve events of ACC_INIT (R169). -/
theorem State.initTransactions_trace (w : State) (c : Nat) (port pin : Byte) : ∃ r₀ r₁ r₂ r₃ r₄ r₅,
    (w.initTransactions c port pin).trace = w.trace ++
      [Event.cs port pin false, Event.frame c 0x0071#16 r₀, Event.frame c 0x0001#16 r₁, Event.cs port pin true,
        Event.cs port pin false, Event.frame c 0x006D#16 r₂, Event.frame c 0x0000#16 r₃, Event.cs port pin true,
        Event.cs port pin false, Event.frame c 0x006D#16 r₄, Event.frame c 0x0008#16 r₅, Event.cs port pin true] := by
  obtain ⟨r₀, r₁, h₁⟩ := w.transaction_trace_pair c port pin 0x0071#16 0x0001#16
  obtain ⟨r₂, r₃, h₂⟩ := State.transaction_trace_pair (w.transaction c port pin _) c port pin 0x006D#16 0x0000#16
  obtain ⟨r₄, r₅, h₃⟩ := State.transaction_trace_pair ((w.transaction c port pin _).transaction c port pin _) c port pin
    0x006D#16 0x0008#16
  exact ⟨r₀, r₁, r₂, r₃, r₄, r₅, by rw [State.initTransactions, h₃, h₂, h₁, List.append_assoc, List.append_assoc]; rfl⟩

/-- ACC_INIT on the eager schedule (R168, R169). -/
theorem drives_accInit {b : State} (w : State) {f : Frame} {rest : List Frame} {ch port pin : Byte} {cc : Channel}
    (hready : b.SessionReady ch port pin cc) (hrun : b.running f rest) (hentry : f.atLine (.accInit ch port pin) 1) :
    ∃ b' : State,
      Drives (accInitTurns ch.toNat) (b.inWorld w)
          (((b'.setInit ⟨ch, port, pin⟩).returned rest).inWorld (w.initTransactions ch.toNat port pin))
        ∧ b'.mode = .run ∧ b'.inits = b.inits := by
  obtain ⟨hop, hl⟩ := hentry
  obtain ⟨b₁, cc₁, hfirst, hready₁, hrun₁, hinits₁⟩ := drives_calledAccWrite (addr := 0x31#8) (value := 0x01#8) w hready
    hrun (by decide) (by simp [calls, hop, hl])
  obtain ⟨b₂, cc₂, hsecond, hready₂, hrun₂, hinits₂⟩ := drives_calledAccWrite (addr := 0x2D#8) (value := 0x00#8)
    (w.transaction ch.toNat port pin [0x0071#16, 0x0001#16]) hready₁ hrun₁ (by decide) (by simp [calls, hop, hl])
  obtain ⟨b₃, cc₃, hthird, -, hrun₃, hinits₃⟩ := drives_calledAccWrite (addr := 0x2D#8) (value := 0x08#8)
    ((w.transaction ch.toNat port pin [0x0071#16, 0x0001#16]).transaction ch.toNat port pin [0x006D#16, 0x0000#16])
    hready₂ hrun₂ (by decide) (by simp [calls, hop, hl])
  have htail := drives_accInitTail (s := b₃.inWorld (w.initTransactions ch.toNat port pin)) hrun₃ hop (by simp [hl])
  exact ⟨b₃, hfirst.trans (hsecond.trans (hthird.trans htail)), hrun₃.1,
    hinits₃.trans (hinits₂.trans hinits₁)⟩

/-- A reference slave alone on the line after ACC_INIT (R169, R200). -/
theorem State.initTransactions_devices {w : State} {d : Device} (hd : w.devices = [d]) :
    ∃ d' : Device, (w.initTransactions d.chan d.port d.pin).devices = [d']
      ∧ d'.slave.reg = ((d.slave.reg.setIfInBounds 0x31 0x01#8).setIfInBounds 0x2D 0x00#8).setIfInBounds 0x2D 0x08#8 := by
  have h₁ := State.transaction_devices hd [0x0071#16, 0x0001#16]
  have h₂ := State.transaction_devices h₁ [0x006D#16, 0x0000#16]
  have h₃ := State.transaction_devices h₂ [0x006D#16, 0x0008#16]
  have hformat : ∀ r : RefSlave, (r.waiting.frames8 [0x0071#16, 0x0001#16]).reg = r.reg.setIfInBounds 0x31 0x01#8 :=
    fun r => r.frames8_write (a := 0x31#6) (by decide) 0x01#8
  have hstandby : ∀ r : RefSlave, (r.waiting.frames8 [0x006D#16, 0x0000#16]).reg = r.reg.setIfInBounds 0x2D 0x00#8 :=
    fun r => r.frames8_write (a := 0x2D#6) (by decide) 0x00#8
  have hmeasure : ∀ r : RefSlave, (r.waiting.frames8 [0x006D#16, 0x0008#16]).reg = r.reg.setIfInBounds 0x2D 0x08#8 :=
    fun r => r.frames8_write (a := 0x2D#6) (by decide) 0x08#8
  exact ⟨_, h₃, by rw [hmeasure, hstandby, hformat]⟩

/-- Settles O44: `drives_accInit`, its three transactions read off the TRACE, and a slave's registers written in turn. -/
theorem accInitEmitsThreeTransactions : Obligations.AccInitEmitsThreeTransactions := by
  intro s f rest ch port pin cc more hrun hentry hlegal hch hport hpin hc hcready hnarrow hturns
  have hready : s.SessionReady ch port pin cc := ⟨hlegal, hch, hport, hpin, hc, hcready, hnarrow⟩
  obtain ⟨b', hdrives, hmode, hinits⟩ := drives_accInit s hready hrun hentry
  obtain ⟨tick, polls, hx⟩ := hdrives.run (s := s) hturns
  obtain ⟨r₀, r₁, r₂, r₃, r₄, r₅, htrace⟩ := s.initTransactions_trace ch.toNat port pin
  refine ⟨_, r₀, r₁, r₂, r₃, r₄, r₅, hx, State.returned_returnedTo (s := b'.setInit ⟨ch, port, pin⟩) hmode, htrace,
    fun x => ?_, rfl, ?_⟩
  · have hmarked := b'.accState_setInit ⟨ch, port, pin⟩ x
    simp only [State.accState, hinits] at hmarked
    exact hmarked
  · rintro d hd hchan rfl rfl
    obtain ⟨d', hd', hreg⟩ := State.initTransactions_devices hd
    rw [hchan] at hd'
    refine ⟨d', hd', by simp [hreg], by simp [hreg], fun k h31 h2D => ?_⟩
    simp [hreg, Vector.getElem_setIfInBounds_ne, Ne.symm h31, Ne.symm h2D]

/-! ACC_READ -/

/-- A header of a read and the frames after it keep a slave's registers (R201). -/
theorem RefSlave.frames8_readHeader (r : RefSlave) (a : BitVec 6) (txs : List Half) :
    (r.waiting.frames8 ((headerByte true true a).toHalf :: txs)).reg = r.reg := by
  have hheader : r.waiting.frame8 (headerByte true true a) = ⟨r.reg, a, .read, true⟩ :=
    RefSlave.frame8_header (r := r.waiting) rfl true true a
  have hrest := RefSlave.frames8_read txs (r := ⟨r.reg, a, .read, true⟩) rfl
  simp only [RefSlave.frames8, List.foldl, lowByte_toHalf, hheader] at hrest ⊢
  exact hrest

/-- The words that a reference slave alone on the line returns after the header of a read (R173, R201). -/
theorem State.answers_afterReadHeader {w : State} {d : Device} (hd : w.devices = [d]) (a : BitVec 6) (n : Nat) :
    ∀ k, k < n → (((w.pinWrite d.port d.pin false).wireFrame d.chan false (headerByte true true a).toHalf).answers d.chan
      false (List.replicate n 0#16))[k]? = (d.slave.reg[(a.toNat + k) % 64]?).map Byte.toHalf := by
  obtain ⟨hwaits, hsel⟩ := State.pinWrite_selects hd
  have hheader := State.wireFrame_devices hwaits hsel (headerByte true true a).toHalf
  rw [lowByte_toHalf, RefSlave.frame8_header (r := d.slave.waiting) rfl] at hheader
  exact State.answers_read n hheader hsel rfl rfl

/-- Settles O45: `drives_accRead`, its transaction read off the TRACE, the cells as `Stored` has them, and the answers of
a slave in its read phase. -/
theorem accReadEmitsOneTransaction : Obligations.AccReadEmitsOneTransaction := by
  intro s f rest ch port pin addr count buf cc more hrun hentry hlegal hch hport hpin haddr hcount hbuf hcells hc hcready
    hnarrow hturns
  have hready : s.SessionReady ch port pin cc := ⟨hlegal, hch, hport, hpin, hc, hcready, hnarrow⟩
  obtain ⟨cc', mem, hdr, hdrives, hidled, hstored⟩ := drives_accRead s hready hrun haddr hentry hcount hbuf hcells
  obtain ⟨tick, polls, hx⟩ := hdrives.run (s := s) hturns
  have hreturned : ((s.withMem mem hdr).setChan ch.toNat cc').mode = .run := hrun.1
  have hread : ∀ k, k < count.toNat → (s.withMem mem hdr).bufRead buf k
      = (((s.pinWrite port pin false).wireFrame ch.toNat false (readHeader addr).toHalf).answers ch.toNat false
        (List.replicate count.toNat 0#16))[k]? := fun k hk => by
    have hcell := hstored.cells k (by simpa using hk)
    rw [Nat.zero_add] at hcell
    exact hcell
  have htrace := s.transaction_trace ch.toNat port pin ((readHeader addr).toHalf :: List.replicate count.toNat 0#16)
  rw [← readHeader_eq]
  refine ⟨_, (s.pinWrite port pin false).answer ch.toNat false (readHeader addr).toHalf,
    ((s.pinWrite port pin false).wireFrame ch.toNat false (readHeader addr).toHalf).answers ch.toNat false
      (List.replicate count.toNat 0#16), cc', hx, State.returned_returnedTo hreturned, by simp, htrace, hread,
    State.transaction_pin_same s ch.toNat hport hready.pin_lt_16 _, rfl, hidled.statusWord, hidled.shiftActive, rfl, rfl,
    ?_⟩
  rintro d hd hchan rfl rfl
  have hdevices := State.transaction_devices hd ((readHeader addr).toHalf :: List.replicate count.toNat 0#16)
  obtain ⟨-, hheader⟩ := headers_of_address addr haddr
  have hptr : (addr.setWidth 6).toNat = addr.toNat := by
    rw [BitVec.toNat_setWidth]
    exact Nat.mod_eq_of_lt (by omega)
  rw [hchan] at hdevices
  refine ⟨_, hdevices, ?_, fun k hk => (hread k hk).trans ?_⟩
  · rw [hheader]
    exact d.slave.frames8_readHeader _ _
  · rw [hheader, ← hptr, ← hchan]
    exact State.answers_afterReadHeader hd _ _ k hk

end Sys2Proof.Machine
end

section
/-! O34, O35: SPI_TRANSFER and SPI_RECEIVE on the eager schedule. -/

namespace Sys2Proof.Machine

/-- Settles O34: `drives_transfer`, its frames read off the TRACE. -/
theorem transferRunsToReturn : Obligations.TransferRunsToReturn := by
  intro s f rest ch count buf c cells more hrun hentry hch hcount hbuf hc hready hcells hturns
  obtain ⟨cc', hdrives, hidled, harm, hrxbuf⟩ := drives_transfer s hrun hentry hch hcount hbuf hc hready hcells
  obtain ⟨tick, polls, hx⟩ := hdrives.run (s := s) hturns
  have hmode : (s.setChan ch.toNat cc').mode = .run := hrun.1
  exact ⟨_, s.answers ch.toNat c.wide (cells.map (· &&& c.mask)), cc', hx, State.returned_returnedTo hmode,
    by simp [hcells.1], State.wireFrames_trace _ _ _ s, rfl, hidled.ctrl1, hidled.ctrl2, hidled.statusWord,
    hidled.shiftActive, harm, hrxbuf, State.wireFrames_pins _ _ _ s, rfl, rfl, rfl, rfl, rfl⟩

/-- Settles O35: `drives_receive`, its frames read off the TRACE and its cells as `Stored` has them. -/
theorem receiveRunsToReturn : Obligations.ReceiveRunsToReturn := by
  intro s f rest ch count buf c more hrun hentry hch hcount hbuf hc hready hrxne hovr hcells hturns
  obtain ⟨cc', mem, hdr, hdrives, hidled, hstored⟩ :=
    drives_receive s hrun hentry hch hcount hbuf hc hready hrxne hovr hcells
  obtain ⟨tick, polls, hx⟩ := hdrives.run (s := s) hturns
  have hmode : ((s.withMem mem hdr).setChan ch.toNat cc').mode = .run := hrun.1
  have hlen : (s.answers ch.toNat c.wide (List.replicate count.toNat 0#16)).length = count.toNat := by simp
  refine ⟨_, s.answers ch.toNat c.wide (List.replicate count.toNat 0#16), cc', hx, State.returned_returnedTo hmode,
    hlen, State.wireFrames_trace _ _ _ s, fun k hk => ?_, fun ref k hk => ?_, rfl, hidled.ctrl1, hidled.ctrl2,
    hidled.statusWord, hidled.shiftActive, State.wireFrames_pins _ _ _ s, rfl, rfl, rfl⟩
  · have hcell := hstored.cells k (by rwa [hlen])
    rw [Nat.zero_add] at hcell
    exact hcell
  · refine hstored.others ref k (hk.imp_right fun hle => .inr ?_)
    rwa [hlen, Nat.zero_add]

end Sys2Proof.Machine
end

section
/-! O20, O28, O26, O33: the lines of SPI_INIT around its fields, the poll, and what SPI_INIT (`InitEffect`) and SPI_TRANSFER
and SPI_RECEIVE (`ExchangeEffect`) leave unchanged. -/

namespace Sys2Proof.Machine

/-- Settles O20, line by line. -/
theorem initTakesEachRecord : Obligations.InitTakesEachRecord := by
  intro s f rest count table hrun hop
  have hline : exec f.op s = execSpiInit count table s := by rw [hop]; rfl
  rw [hline, execSpiInit, operation_of_running hrun]
  refine ⟨fun hl => ?_, fun cfg hl ht hcfg => ?_, fun hl => ?_, fun hl => ⟨s.ret, ?_, State.ret_returnedTo hrun⟩⟩ <;>
    simp only [hl]
  · rw [State.setTop_of_running hrun]
    rfl
  · simp only [initRecord, if_neg ht, hcfg]
    rw [State.setTop_of_running hrun, Frame.next_of_line hl]
  · rw [State.setTop_of_running hrun, Frame.next_of_line hl]

/-- Settles O28: each wait of the pseudocode is the model's poll, branch by branch. -/
theorem pollsOfThePseudocode : Obligations.PollsOfThePseudocode := by
  intro s f rest c fl v ch hrun hwait hch
  refine ⟨ch.polled, rfl, ?_⟩
  rw [exec_of_waits hrun hwait]
  simp only [waitUntil, hch, Channel.afterStatusRead_eq]
  split
  · rw [State.setTop_of_running (s := s.setChan _ _) hrun]
    rfl
  · cases s.params.waitBound with
    | none => rfl
    | some bound =>
      dsimp only
      by_cases hreached : bound ≤ s.polls + 1
      · rw [if_pos hreached, if_neg (Nat.not_lt.mpr hreached)]
        rw [BitVec.ofNat_toNat]
        rfl
      · rw [if_neg hreached, if_pos (Nat.lt_of_not_le hreached)]
        rfl

/-! What SPI_INIT leaves unchanged (R134, R136) -/

/-- A channel put back with no more than its two control registers changed. -/
def Channel.sameData (ch ch' : Channel) : Prop := { ch' with ctrl1 := ch.ctrl1, ctrl2 := ch.ctrl2 } = ch

/-- What a step of SPI_INIT makes of the state: the position moves, a control register of the record's channel is
written or read, or a fault is taken (R82, R133, R222). -/
inductive InitEffect (s : State) : State → Prop
  | position (mode : SeqMode) (pc : List Frame) : InitEffect s { s with mode := mode, pc := pc }
  | control {f : Frame} {ch ch' : Channel} (hf : s.pc.head? = some f) (hch : s.chans[f.cfg.channel.toNat]? = some ch)
      (hdata : ch.sameData ch') (pc : List Frame) :
      InitEffect s { s with chans := s.chans.set f.cfg.channel.toNat ch', pc := pc }
  | raise (x : FaultCause) (info : Word) : InitEffect s (s.raise x info)

theorem InitEffect.of_ret (s : State) : InitEffect s s.ret := by
  unfold State.ret
  split
  · exact .position s.mode _
  · exact .position .idle _

theorem Channel.sameData_of_afterWrite {ch ch' : Channel} {fld : Field} {v : Half}
    (h : ch.afterWrite fld.reg v = some ch') : ch.sameData ch' := by
  cases (Channel.afterWrite_field ch fld v).symm.trans h
  split <;> rfl

theorem InitEffect.of_initLine {count : Half} {s t : State} {f : Frame} {rest : List Frame} (hrun : s.running f rest)
    (h : initLine count f s = .next t) : InitEffect s t := by
  have hhead : s.pc.head? = some f := congrArg List.head? hrun.2
  rcases initLine_next h with ⟨-, rfl⟩ | ⟨fields, fld, v, ch, -, -, hch, ⟨-, rfl⟩ | ⟨-, ch', hw, rfl⟩⟩
  · exact .raise _ _
  · exact .control hhead hch rfl _
  · exact .control hhead hch (Channel.sameData_of_afterWrite hw) _

theorem initEffect_of_exec {s t : State} {count : Half} {table : Word} (h : execSpiInit count table s = .next t) :
    InitEffect s t := by
  rcases operation_next h with ⟨-, -, rfl⟩ | ⟨-, hi, -⟩ | ⟨-, rfl⟩ | ⟨f, rest, hrun, h⟩
  · exact .position .run _
  · cases hi
  · exact .position t.mode t.pc
  · split at h
    case h_1 | h_4 => cases h; exact .position s.mode _
    case h_2 =>
      obtain ⟨-, cfg, -, rfl⟩ := initRecord_next h
      exact .position s.mode _
    case h_3 =>
      rcases assertLine_next h with ⟨-, rfl⟩ | ⟨-, rfl⟩
      · exact .position s.mode _
      · exact .raise _ _
    case h_13 => cases h; exact .of_ret s
    case h_14 => cases h
    all_goals exact .of_initLine hrun h

/-- Settles O26, effect by effect. -/
theorem initFrame : Obligations.InitFrame := by
  intro s t count table h
  have hsame : ∀ (c : Nat) (ch : Channel), s.chans[c]? = some ch → ∃ ch', s.chans[c]? = some ch'
      ∧ ch.sameData ch' ∧ ((∀ f, s.pc.head? = some f → f.cfg.channel.toNat ≠ c) → ch' = ch) :=
    fun c ch hch => ⟨ch, hch, rfl, fun _ => rfl⟩
  cases initEffect_of_exec h with
  | position mode pc =>
    exact ⟨⟨rfl, rfl, rfl, rfl, rfl⟩, ⟨rfl, rfl, rfl, rfl, rfl, rfl, rfl⟩, rfl, rfl, .inl ⟨rfl, rfl, rfl⟩, rfl, hsame⟩
  | raise x info =>
    exact ⟨⟨rfl, rfl, rfl, rfl, rfl⟩, ⟨rfl, rfl, rfl, rfl, rfl, rfl, rfl⟩, rfl, rfl, .inr ⟨x.code, info, rfl⟩, rfl, hsame⟩
  | @control f ch ch' hf hch hdata pc =>
    refine ⟨⟨rfl, rfl, rfl, rfl, rfl⟩, ⟨rfl, rfl, rfl, rfl, rfl, rfl, rfl⟩, rfl, rfl, .inl ⟨rfl, rfl, rfl⟩, by simp, ?_⟩
    exact forall_getElem?_set (R := fun c ch ch' => ch.sameData ch'
      ∧ ((∀ f, s.pc.head? = some f → f.cfg.channel.toNat ≠ c) → ch' = ch)) hch
      ⟨hdata, fun hno => absurd rfl (hno f hf)⟩ fun _ _ _ => ⟨rfl, fun _ => rfl⟩

/-! What SPI_TRANSFER and SPI_RECEIVE leave unchanged (R130, R137 to R142, R146) -/

/-- What a step of SPI_TRANSFER or SPI_RECEIVE makes of the state: the position moves, the channel is accessed, SPI_RECEIVE
stores a cell, or a fault is taken (R138, R141, R222). -/
inductive ExchangeEffect (s : State) (i : Instr) (c : Nat) (buf : Word) : State → Prop
  | position (mode : SeqMode) (pc : List Frame) : ExchangeEffect s i c buf { s with mode := mode, pc := pc }
  | access {ch ch' : Channel} (hch : s.chans[c]? = some ch) (hacc : ch.Accessed ch') (pc : List Frame) (polls : Nat) :
      ExchangeEffect s i c buf { s with chans := s.chans.set c ch', pc := pc, polls := polls }
  | store {f : Frame} {u : State} (hi : ∀ ch count, i ≠ .spiTransfer ch count buf) (hf : s.pc.head? = some f)
      (hw : s.bufWrite buf f.idx.toNat f.tmp = some u) (pc : List Frame) :
      ExchangeEffect s i c buf { u with pc := pc }
  | raise (x : FaultCause) (info : Word) : ExchangeEffect s i c buf (s.raise x info)

section Exchange

variable {s t : State} {i : Instr} {c : Nat} {buf : Word}

theorem ExchangeEffect.of_ret (s : State) (i : Instr) (c : Nat) (buf : Word) : ExchangeEffect s i c buf s.ret := by
  unfold State.ret
  split
  · exact .position s.mode _
  · exact .position .idle _

theorem ExchangeEffect.of_assertLine {cond : Bool} {x : FaultCause} {info : Word} {f : Frame}
    (h : assertLine cond x info f s = .next t) : ExchangeEffect s i c buf t := by
  rcases assertLine_next h with ⟨-, rfl⟩ | ⟨-, rfl⟩
  · exact .position s.mode _
  · exact .raise _ _

theorem ExchangeEffect.of_loopHead {ch : Byte} {f : Frame} (h : loopHead ch f s = .next t) :
    ExchangeEffect s i c buf t := by
  obtain ⟨-, rfl⟩ := loopHead_next h
  exact .position s.mode _

theorem ExchangeEffect.of_waitUntil {fl : Flag} {v : Bool} {f : Frame} (h : waitUntil c fl v f s = .next t) :
    ExchangeEffect s i c buf t := by
  obtain ⟨ch, hch, ⟨-, rfl⟩ | ⟨-, -, rfl⟩ | ⟨-, -, rfl⟩ | ⟨-, -, rfl⟩⟩ := waitUntil_next h
  · exact .access hch .statusRead _ 0
  · exact .access hch .statusRead s.pc s.polls
  · exact .access hch .statusRead s.pc _
  · exact .raise _ _

theorem ExchangeEffect.of_regRead {r : Reg} {g : Half → Frame}
    (h : regRead c r s (fun d s' => .next (s'.setTop (g d))) = .next t) : ExchangeEffect s i c buf t := by
  obtain ⟨ch, hch, hk⟩ := regRead_next h
  cases hk
  exact .access hch (ch.accessed_afterRead r) _ s.polls

theorem ExchangeEffect.of_dataWrite {v : Half} {g : Frame}
    (h : regWrite c .data v s (fun s' => .next (s'.setTop g)) = .next t) : ExchangeEffect s i c buf t := by
  obtain ⟨ch, ch', hch, hw, hk⟩ := regWrite_next h
  cases hk
  exact .access hch (Channel.accessed_of_dataWrite hw) _ s.polls

end Exchange

theorem exchangeEffect_of_transfer {s t : State} {ch : Byte} {count : Half} {buf : Word}
    (h : execSpiTransfer ch count buf s = .next t) : ExchangeEffect s (.spiTransfer ch count buf) ch.toNat buf t := by
  rcases operation_next h with ⟨-, -, rfl⟩ | ⟨-, hi, -⟩ | ⟨-, rfl⟩ | ⟨f, rest, hrun, h⟩
  · exact .position .run _
  · cases hi
  · exact .position t.mode t.pc
  · split at h
    case h_1 | h_2 | h_3 => exact .of_assertLine h
    case h_4 => exact .of_loopHead h
    case h_5 | h_8 | h_9 => exact .of_waitUntil h
    case h_6 =>
      obtain ⟨e, -, rfl⟩ := fetchCell_next h
      exact .position s.mode _
    case h_7 => exact .of_dataWrite h
    case h_10 | h_11 => exact .of_regRead h
    case h_12 => cases h; exact .of_ret s _ _ _
    case h_13 => cases h

theorem exchangeEffect_of_receive {s t : State} {ch : Byte} {count : Half} {buf : Word}
    (h : execSpiReceive ch count buf s = .next t) : ExchangeEffect s (.spiReceive ch count buf) ch.toNat buf t := by
  rcases operation_next h with ⟨-, -, rfl⟩ | ⟨-, hi, -⟩ | ⟨-, rfl⟩ | ⟨f, rest, hrun, h⟩
  · exact .position .run _
  · cases hi
  · exact .position t.mode t.pc
  · split at h
    case h_1 | h_2 | h_3 => exact .of_assertLine h
    case h_4 => exact .of_loopHead h
    case h_5 => exact .of_dataWrite h
    case h_6 => exact .of_waitUntil h
    case h_7 => exact .of_regRead h
    case h_8 =>
      obtain ⟨u, hu, rfl⟩ := storeCell_next h
      exact .store (by rintro _ _ ⟨⟩) (congrArg List.head? hrun.2) hu _
    case h_9 => cases h; exact .of_ret s _ _ _
    case h_10 => cases h

/-- What the two operations leave of channel `n`: all of it if it is not their own, and of their own the control registers
and the receiver. -/
def ExchangeKept (c n : Nat) (ch ch' : Channel) : Prop :=
  (n ≠ c → ch' = ch) ∧ ch'.ctrl1 = ch.ctrl1 ∧ ch'.ctrl2 = ch.ctrl2 ∧ ch'.bsy = ch.bsy ∧ ch'.rxbuf = ch.rxbuf
    ∧ ch'.shift = ch.shift ∧ ch'.shiftActive = ch.shiftActive

theorem exchangeKept_refl (c n : Nat) (ch : Channel) : ExchangeKept c n ch ch :=
  ⟨fun _ => rfl, rfl, rfl, rfl, rfl, rfl, rfl⟩

theorem exchangeKept_all (c : Nat) {s t : State} (h : t.chans = s.chans) (n : Nat) (ch : Channel)
    (hch : s.chans[n]? = some ch) : ∃ ch', t.chans[n]? = some ch' ∧ ExchangeKept c n ch ch' :=
  ⟨ch, h ▸ hch, exchangeKept_refl c n ch⟩

/-- Settles O33, effect by effect. -/
theorem transferReceiveFrame : Obligations.TransferReceiveFrame := by
  intro s t ch count buf i hi h
  have heffect : ExchangeEffect s i ch.toNat buf t := by
    rcases hi with rfl | rfl
    · exact exchangeEffect_of_transfer h
    · exact exchangeEffect_of_receive h
  cases heffect with
  | position mode pc =>
    exact ⟨⟨rfl, rfl, rfl, rfl, rfl⟩, rfl, rfl, rfl, rfl, rfl, rfl, rfl, rfl, fun _ => ⟨rfl, rfl⟩, fun _ _ _ => rfl,
      .inl ⟨rfl, rfl, rfl⟩, rfl, exchangeKept_all _ rfl⟩
  | raise x info =>
    exact ⟨⟨rfl, rfl, rfl, rfl, rfl⟩, rfl, rfl, rfl, rfl, rfl, rfl, rfl, rfl, fun _ => ⟨rfl, rfl⟩, fun _ _ _ => rfl,
      .inr ⟨x.code, info, rfl⟩, rfl, exchangeKept_all _ rfl⟩
  | access hch hacc pc polls =>
    obtain ⟨hrx, hshift, hactive, hbsy⟩ := hacc.sameReceiver
    refine ⟨⟨rfl, rfl, rfl, rfl, rfl⟩, rfl, rfl, rfl, rfl, rfl, rfl, rfl, rfl, fun _ => ⟨rfl, rfl⟩, fun _ _ _ => rfl,
      .inl ⟨rfl, rfl, rfl⟩, by simp, forall_getElem?_set (R := ExchangeKept ch.toNat) hch ?_ fun n y _ =>
        exchangeKept_refl _ n y⟩
    exact ⟨fun hne => absurd rfl hne, hacc.ctrl1, hacc.ctrl2, hbsy, hrx, hshift, hactive⟩
  | @store f u hreceive hf hw pc =>
    have hothers := (bufRead_of_bufWrite hw).2
    have hcells : ∀ ref k, (ref ≠ buf ∨ ∀ g, s.pc.head? = some g → k ≠ g.idx.toNat) → u.bufRead ref k = s.bufRead ref k :=
      fun ref k hother => hothers ref k (hother.imp_right fun hk => hk f hf)
    rcases bufWrite_some hw with ⟨-, -, rfl⟩ | ⟨-, -, rfl⟩ <;>
      exact ⟨⟨rfl, rfl, rfl, rfl, rfl⟩, rfl, rfl, rfl, rfl, rfl, rfl, rfl, rfl, fun hi => absurd hi (hreceive _ _), hcells,
        .inl ⟨rfl, rfl, rfl⟩, rfl, exchangeKept_all _ rfl⟩

end Sys2Proof.Machine
end

section
/-! The agents beside SEQ in a machine that runs: a link agent's move (`LinkMove`), what it leaves, and the three kinds of
step there are while HOST does not reset. O29 is read off it. -/

namespace Sys2Proof.Machine

/-! A link agent's move (R190 to R193, R206) -/

/-- What a link agent's turn makes of the state: nothing, LINK_START, LINK_COMPLETE of the frame in flight, or a step of the
supplied relation on a channel that R206 leaves open. -/
inductive LinkMove (s : State) : State → Prop
  | nothing : LinkMove s s
  | start {c : Nat} {ch : Channel} (hch : s.chans[c]? = some ch) (hen : ch.startEnabled = true) :
      LinkMove s { s.setChan c ch.started with lnk := c }
  | complete {c : Nat} {ch : Channel} (hch : s.chans[c]? = some ch) (hen : ch.completeEnabled = true) :
      LinkMove s (s.completeFrame c ch (ch.shift &&& ch.mask))
  | other {c : Nat} {ch : Channel} (hch : s.chans[c]? = some ch) (hopen : ch.linkOpen = true) (e : LinkEffect) :
      LinkMove s (s.linkOtherStep c ch e)

/-- A link agent's turn never stops the machine. -/
theorem linkStep_linkMove (c : Nat) (s : State) : ∃ t, linkStep c s = .next t ∧ LinkMove s t := by
  cases hch : s.chans[c]? with
  | none => exact ⟨s, by simp [linkStep, hch], .nothing⟩
  | some ch =>
    by_cases hstart : ch.startEnabled = true
    · exact ⟨_, linkStep_start hch hstart, .start hch hstart⟩
    by_cases hcomplete : ch.completeEnabled = true
    · exact ⟨_, linkStep_complete hch hcomplete, .complete hch hcomplete⟩
    simp only [linkStep, hch, if_neg hstart, if_neg hcomplete]
    cases he : s.linkOtherEffect c ch with
    | none => exact ⟨s, rfl, .nothing⟩
    | some e => exact ⟨_, rfl, .other hch (linkOtherEffect_some he).1 e⟩

/-- What a link agent leaves: everything of SEQ and HOST, the pins, and the control registers (R82, R192, R193, R206). -/
structure LinkKept (s t : State) : Prop where
  params : t.params = s.params
  pins : t.pins = s.pins
  mode : t.mode = s.mode
  pc : t.pc = s.pc
  faultCode : t.faultCode = s.faultCode
  mem : t.mem = s.mem
  hdr : t.hdr = s.hdr
  inbox : t.inbox = s.inbox
  turns : t.turns = s.turns
  controls : t.controls = s.controls

theorem LinkMove.kept {s t : State} (h : LinkMove s t) : LinkKept s t := by
  cases h with
  | nothing => exact ⟨rfl, rfl, rfl, rfl, rfl, rfl, rfl, rfl, rfl, rfl⟩
  | start hch hen => exact ⟨rfl, rfl, rfl, rfl, rfl, rfl, rfl, rfl, rfl, State.controls_of_set hch rfl rfl rfl⟩
  | complete hch hen => exact ⟨rfl, rfl, rfl, rfl, rfl, rfl, rfl, rfl, rfl, State.controls_of_set hch rfl rfl rfl⟩
  | other hch hopen e => exact ⟨rfl, rfl, rfl, rfl, rfl, rfl, rfl, rfl, rfl, State.controls_of_set hch rfl rfl rfl⟩

/-- On a channel that is not enabled no link agent moves (R191). -/
theorem LinkMove.disabled_chan {s t : State} (h : LinkMove s t) {c : Nat} {ch : Channel} (hch : s.chans[c]? = some ch)
    (hdis : ch.enable = false) : t.chans[c]? = some ch := by
  have hother : ∀ {c' : Nat} {ch' x : Channel}, s.chans[c']? = some ch' → ch'.enable = true →
      (s.chans.set c' x)[c]? = some ch := by
    intro c' ch' x hch' hen
    have hne : c' ≠ c := by
      rintro rfl
      cases hch.symm.trans hch'
      simp [hdis] at hen
    rw [List.getElem?_set_ne hne, hch]
  cases h with
  | nothing => exact hch
  | start hch' hen =>
    simp only [Channel.startEnabled, Channel.linkOn, Bool.and_eq_true] at hen
    exact hother hch' hen.1.1.1.1
  | complete hch' hen =>
    simp only [Channel.completeEnabled, Channel.linkOn, Bool.and_eq_true] at hen
    exact hother hch' hen.1.1.1
  | other hch' hopen e => exact hother hch' (Bool.and_eq_true_iff.mp hopen).1

/-! Steps of a machine that runs (R78, R79, log 21, 28) -/

/-- HOST, which does not reset, has no act that can take place while an operation runs (R37, R79). -/
theorem hostStep_of_running {s : State} (hmode : s.mode = .run) (hreset : .reset ∉ s.inbox) : hostStep s = .next s := by
  unfold hostStep
  cases hinbox : s.inbox with
  | nil => rfl
  | cons a acts =>
    have hwaits : s.actAllowed a = false := by
      cases a with
      | reset => simp [hinbox] at hreset
      | _ => simp [State.actAllowed, hmode]
    simp [hwaits]

/-- While an operation runs and HOST does not reset, a step is SEQ's line, a link agent's move, or nothing. -/
theorem step_of_run {s : State} {f : Frame} {rest : List Frame} (hrun : s.running f rest) (hreset : .reset ∉ s.inbox) :
    step s = exec f.op s.spendTurn ∨ ∃ t, step s = .next t ∧ LinkMove s.spendTurn t := by
  cases hturn : s.nextTurn with
  | none => exact .inr ⟨s.spendTurn, by simp only [step, hturn], .nothing⟩
  | some a =>
    cases a with
    | seq => exact .inl (step_of_running hturn hrun)
    | link c =>
      obtain ⟨t, ht, hmove⟩ := linkStep_linkMove c s.spendTurn
      exact .inr ⟨t, (step_of_nextTurn hturn).trans ht, hmove⟩
    | host =>
      exact .inr ⟨s.spendTurn, (step_of_nextTurn hturn).trans (hostStep_of_running (s := s.spendTurn) hrun.1 hreset),
        .nothing⟩

theorem run_succ {s t : State} (h : step s = .next t) (n : Nat) :
    Host.Core.run core (n + 1) s = Host.Core.run core n t := by
  have hstep : core.step s = .next t := h
  simp only [Host.Core.run, hstep]

/-! A wait that hangs (R139, R191, R254) -/

/-- The flags that are awaited are not touched by a poll (R68, R138, R141). -/
theorem flag_afterStatusRead {i : Instr} {line : Nat} {c : Byte} {fl : Flag} {v : Bool}
    (h : waits i line = some (c, fl, v)) (ch : Channel) : ch.afterStatusRead.flag fl = ch.flag fl := by
  have hne : fl ≠ .ovr := by
    unfold waits at h
    split at h <;> cases h <;> exact nofun
  rw [Channel.afterStatusRead_eq]
  cases fl with
  | ovr => exact absurd rfl hne
  | _ => rfl

/-- `f` waits on a channel that is not enabled, for a value its flag has not, without a bound and without a reset to come. -/
structure State.Hangs (s : State) (f : Frame) (rest : List Frame) (c : Byte) (fl : Flag) (v : Bool) : Prop where
  running : s.running f rest
  waits : waits f.op f.line = some (c, fl, v)
  chan : ∃ ch, s.chans[c.toNat]? = some ch ∧ ch.enable = false ∧ ch.flag fl ≠ v
  unbounded : s.params.waitBound = none
  noReset : .reset ∉ s.inbox

theorem State.Hangs.step {s : State} {f : Frame} {rest : List Frame} {c : Byte} {fl : Flag} {v : Bool}
    (h : s.Hangs f rest c fl v) : ∃ t, step s = .next t ∧ t.Hangs f rest c fl v ∧ t.faultCode = s.faultCode
      ∧ t.inbox = s.inbox ∧ t.pins = s.pins := by
  obtain ⟨hrun, hwaits, ⟨ch, hch, hdis, hflag⟩, hbound, hreset⟩ := h
  rcases step_of_run hrun hreset with hstep | ⟨t, hstep, hmove⟩
  · have hpoll : exec f.op s.spendTurn = .next (s.spendTurn.setChan c.toNat ch.afterStatusRead) := by
      rw [exec_of_waits (s := s.spendTurn) hrun hwaits]
      simp only [waitUntil, State.spendTurn_chans, hch, if_neg hflag, State.spendTurn_params, hbound]
    have hdis' : ch.afterStatusRead.enable = false := by rw [Channel.enable, Channel.afterStatusRead_ctrl1]; exact hdis
    exact ⟨_, hstep.trans hpoll, ⟨hrun, hwaits, ⟨_, State.getElem?_setChan (s := s.spendTurn) hch _, hdis',
      by rwa [flag_afterStatusRead hwaits]⟩, hbound, hreset⟩, rfl, rfl, rfl⟩
  · have hkept := hmove.kept
    refine ⟨t, hstep, ⟨⟨hkept.mode.trans hrun.1, hkept.pc.trans hrun.2⟩, hwaits,
      ⟨ch, hmove.disabled_chan hch hdis, hdis, hflag⟩, ?_, ?_⟩, hkept.faultCode, hkept.inbox, hkept.pins⟩
    · rw [hkept.params]
      exact hbound
    · rw [hkept.inbox]
      exact hreset

theorem State.Hangs.run : ∀ (n : Nat) {s : State} {f : Frame} {rest : List Frame} {c : Byte} {fl : Flag} {v : Bool},
    s.Hangs f rest c fl v → ∃ t, Host.Core.run core n s = .next t ∧ t.Hangs f rest c fl v ∧ t.faultCode = s.faultCode
      ∧ t.inbox = s.inbox ∧ t.pins = s.pins
  | 0, s, _, _, _, _, _, h => ⟨s, rfl, h, rfl, rfl, rfl⟩
  | n + 1, s, _, _, _, _, _, h => by
    obtain ⟨u, hstep, hu, hcode, hinbox, hpins⟩ := h.step
    obtain ⟨t, hrun, ht, hcode', hinbox', hpins'⟩ := State.Hangs.run n hu
    exact ⟨t, (run_succ hstep n).trans hrun, ht, hcode'.trans hcode, hinbox'.trans hinbox, hpins'.trans hpins⟩

/-- Settles O29: `Hangs` is kept by every step. -/
theorem disabledChannelHangs : Obligations.DisabledChannelHangs := by
  intro s f rest c fl v ch hrun hwaits hch hdis hflag hbound hreset n
  obtain ⟨t, ht, hangs, hcode, hinbox, hpins⟩ := State.Hangs.run n ⟨hrun, hwaits, ⟨ch, hch, hdis, hflag⟩, hbound, hreset⟩
  exact ⟨t, ht, hangs.running.1, hangs.running.2.trans hrun.2.symm, hcode, hinbox, hpins⟩

end Sys2Proof.Machine
end

section
/-! An operation on a channel in every interleaving: the link agent's step as one channel sees it (`LinkStep`), what the
words given to a channel make of it (`Exchanging`), and the induction over a run up to an operation's first return
(`Stages`), each line of the operation by one rule. -/

namespace Sys2Proof.Machine

/-! The link agent's step on one channel (R192, R193) -/

/-- What a link agent makes of a channel in which it steps, with the frames it completes. -/
inductive Channel.LinkStep (ch : Channel) : List (Half × Half) → Channel → Prop
  | nothing : ch.LinkStep [] ch
  | start (hen : ch.startEnabled = true) : ch.LinkStep [] ch.started
  | complete (hen : ch.completeEnabled = true) (rx : Half) : ch.LinkStep [(ch.shift &&& ch.mask, rx)] (ch.completed rx)

theorem framesOn_append_frame (n c : Nat) (trace : List Event) (tx rx : Half) :
    framesOn n (trace ++ [.frame c tx rx]) = framesOn n trace ++ (if n = c then [(tx, rx)] else []) := by
  by_cases hn : n = c
  · simp [framesOn, hn]
  · simp [framesOn, hn, Ne.symm hn]

theorem Channel.linkOpen_of_linkOn {ch : Channel} (h : ch.linkOn = true) : ch.linkOpen = false := by
  simp only [Channel.linkOn, Bool.and_eq_true, Bool.not_eq_true'] at h
  obtain ⟨⟨-, hrole⟩, hrx⟩ := h
  simp [Channel.linkOpen, hrole, hrx]

/-- A link agent's move, seen from one channel in which LINK steps: a move on another channel is none on this one. -/
theorem LinkMove.linkStep {s t : State} (h : LinkMove s t) {n : Nat} {ch : Channel} (hch : s.chans[n]? = some ch)
    (hon : ch.linkOn = true) : ∃ new ch', t.chans[n]? = some ch'
      ∧ framesOn n t.trace = framesOn n s.trace ++ new ∧ ch.LinkStep new ch' := by
  have hother : ∀ {c : Nat} {x : Channel}, n ≠ c → (s.chans.set c x)[n]? = some ch :=
    fun hne => (List.getElem?_set_ne hne.symm).trans hch
  cases h with
  | nothing => exact ⟨[], ch, hch, (List.append_nil _).symm, .nothing⟩
  | @start c ch₀ hch₀ hen =>
    by_cases hn : n = c
    · subst hn
      cases hch.symm.trans hch₀
      exact ⟨[], ch.started, State.getElem?_setChan hch _, (List.append_nil _).symm, .start hen⟩
    · exact ⟨[], ch, hother hn, (List.append_nil _).symm, .nothing⟩
  | @complete c ch₀ hch₀ hen =>
    rw [State.completeFrame_trace, framesOn_append_frame]
    by_cases hn : n = c
    · subst hn
      cases hch.symm.trans hch₀
      exact ⟨_, _, State.getElem?_setChan hch _, by rw [if_pos rfl], .complete hen _⟩
    · exact ⟨[], ch, hother hn, by rw [if_neg hn], .nothing⟩
  | @other c ch₀ hch₀ hopen e =>
    have hn : n ≠ c := by
      rintro rfl
      cases hch.symm.trans hch₀
      simp [Channel.linkOpen_of_linkOn hon] at hopen
    refine ⟨[], ch, hother hn, ?_, .nothing⟩
    rw [List.append_nil, State.linkOtherStep]
    cases he : e.frame with
    | none => rfl
    | some frame =>
      obtain ⟨tx, rx⟩ := frame
      dsimp only
      rw [framesOn_append_frame, if_neg hn, List.append_nil]

/-- With nothing in flight and nothing waiting a link agent does nothing (R198). -/
theorem Channel.LinkStep.of_ready {ch ch' : Channel} {new : List (Half × Half)} (h : ch.LinkStep new ch')
    (hready : ch.ready = true) : new = [] ∧ ch' = ch := by
  obtain ⟨-, htxe, hshift⟩ := ch.ready_iff.mp hready
  cases h with
  | nothing => exact ⟨rfl, rfl⟩
  | start hen => simp [Channel.startEnabled, htxe] at hen
  | complete hen => simp [Channel.completeEnabled, hshift] at hen

theorem Channel.LinkStep.txe {ch ch' : Channel} {new : List (Half × Half)} (h : ch.LinkStep new ch')
    (htxe : ch.txe = true) : ch'.txe = true := by
  cases h with
  | start hen => rfl
  | _ => exact htxe

/-! The words given to a channel, and what has come back (R139, R193, R203) -/

/-- Channel `ch` is what `c` has become when `given` words have been written to it and `frames` have completed: the frames
sent the words in order and the others are pending; RXNE and RXBUF are those of the first frame, unless RXNE was 1; a
first frame overruns nothing; BSY shows a frame in progress, and after a frame it shows that something is pending. -/
structure Channel.Exchanging (c : Channel) (given : List Half) (frames : List (Half × Half)) (ch : Channel) : Prop where
  ctrl1 : ch.ctrl1 = c.ctrl1
  linkOn : ch.linkOn = true
  given : frames.map Prod.fst ++ ch.pending = given
  rxne : ch.rxne = (c.rxne || !frames.isEmpty)
  rxbuf : ch.rxbuf = if c.rxne then c.rxbuf else (frames.map Prod.snd).headD c.rxbuf
  overrun : c.rxne = false → c.ovr = false → frames.length ≤ 1 → ch.ovr = false
  busy : ch.shiftActive = true → ch.bsy = true
  quiet : frames ≠ [] → ch.bsy = true → ch.shiftActive = true ∨ ch.txe = false

theorem Channel.mask_of_ctrl1 {ch c : Channel} (h : ch.ctrl1 = c.ctrl1) : ch.mask = c.mask := by
  rw [Channel.mask, Channel.wide_of_ctrl1 h, Channel.mask]

theorem Channel.pending_of_ready {ch : Channel} (h : ch.ready = true) : ch.pending = [] := by
  obtain ⟨-, htxe, hshift⟩ := ch.ready_iff.mp h
  simp [Channel.pending, htxe, hshift]

/-- Where nothing is pending TXE = 1 and the shifter is idle (R203). -/
theorem Channel.idle_of_pending_eq_nil {ch : Channel} (h : ch.pending = []) : ch.txe = true ∧ ch.shiftActive = false := by
  rw [Channel.pending, List.append_eq_nil_iff] at h
  obtain ⟨hshift, htxe⟩ := h
  exact ⟨by simpa using htxe, by simpa using hshift⟩

namespace Channel.Exchanging

variable {c ch : Channel} {given : List Half} {frames : List (Half × Half)}

theorem begin (h : c.ready = true) : c.Exchanging [] [] c where
  ctrl1 := rfl
  linkOn := (c.ready_iff.mp h).1
  given := Channel.pending_of_ready h
  rxne := (Bool.or_false _).symm
  rxbuf := (ite_self _).symm
  overrun := fun _ hovr _ => hovr
  busy := fun hshift => by simp [(c.ready_iff.mp h).2.2] at hshift
  quiet := fun h => absurd rfl h

theorem started (h : c.Exchanging given frames ch) (hen : ch.startEnabled = true) :
    c.Exchanging given frames ch.started where
  ctrl1 := h.ctrl1
  linkOn := h.linkOn
  given := (congrArg (frames.map Prod.fst ++ ·) (Channel.pending_started hen)).trans h.given
  rxne := h.rxne
  rxbuf := h.rxbuf
  overrun := h.overrun
  busy := fun _ => rfl
  quiet := fun _ _ => .inl rfl

theorem completed (h : c.Exchanging given frames ch) (hen : ch.completeEnabled = true) (rx : Half) :
    c.Exchanging given (frames ++ [(ch.shift &&& ch.mask, rx)]) (ch.completed rx) where
  ctrl1 := h.ctrl1
  linkOn := h.linkOn
  given := by
    rw [List.map_append, List.append_assoc, ← h.given, ← Channel.pending_completed hen rx]
    rfl
  rxne := by simp [Channel.completed]
  rxbuf := by
    simp only [Channel.completed, h.rxne, h.rxbuf]
    cases frames <;> cases c.rxne <;> rfl
  overrun := fun hrxne hovr hlen => by
    have hfirst : frames = [] := List.length_eq_zero_iff.mp (by simpa using hlen)
    simp [Channel.completed, h.overrun hrxne hovr (by simp [hfirst]), h.rxne, hrxne, hfirst]
  busy := nofun
  quiet := fun _ hbsy => .inr (by simpa [Channel.completed] using (Bool.and_eq_true_iff.mp hbsy).2)

theorem link (h : c.Exchanging given frames ch) {ch' : Channel} {new : List (Half × Half)} (hlink : ch.LinkStep new ch') :
    c.Exchanging given (frames ++ new) ch' := by
  cases hlink with
  | nothing => rwa [List.append_nil]
  | start hen =>
    rw [List.append_nil]
    exact h.started hen
  | complete hen rx => exact h.completed hen rx

theorem polled (h : c.Exchanging given frames ch) : c.Exchanging given frames ch.polled :=
  { h with overrun := fun hrxne hovr hlen => by simp [Channel.polled, h.overrun hrxne hovr hlen] }

theorem dataWrite (h : c.Exchanging given frames ch) (htxe : ch.txe = true) (v : Half) :
    c.Exchanging (given ++ [v &&& c.mask]) frames (ch.afterDataWrite v) where
  ctrl1 := h.ctrl1
  linkOn := h.linkOn
  given := by
    rw [Channel.pending_dataWrite htxe, ← List.append_assoc, h.given, Channel.mask_of_ctrl1 h.ctrl1]
  rxne := h.rxne
  rxbuf := h.rxbuf
  overrun := h.overrun
  busy := h.busy
  quiet := fun _ _ => .inr rfl

/-- Where TXE = 1 and the shifter is idle every word given has been sent. -/
theorem sent (h : c.Exchanging given frames ch) (htxe : ch.txe = true) (hshift : ch.shiftActive = false) :
    frames.map Prod.fst = given := by
  have hgiven := h.given
  rwa [Channel.pending_of_ready (ch.ready_iff.mpr ⟨h.linkOn, htxe, hshift⟩), List.append_nil] at hgiven

end Channel.Exchanging

/-! Runs up to an operation's first return (R39, R79) -/

theorem run_succ_next {s t : State} {k : Nat} (h : Host.Core.run core (k + 1) s = .next t) :
    ∃ u, step s = .next u ∧ Host.Core.run core k u = .next t := by
  have hcore : core.step s = step s := rfl
  simp only [Host.Core.run, hcore] at h
  split at h
  · exact ⟨_, ‹_›, h⟩
  · cases h
  · cases h

/-- Within an operation that stands at `g` above `rest` and uses channel `n`: that channel is `ch`, and its TRACE has
`frames` more than in `s`. -/
structure State.Within (s u : State) (rest : List Frame) (n : Nat) (g : Frame) (frames : List (Half × Half))
    (ch : Channel) : Prop where
  running : u.running g rest
  params : u.params = s.params
  noReset : .reset ∉ u.inbox
  chan : u.chans[n]? = some ch
  frames : framesOn n u.trace = framesOn n s.trace ++ frames

/-- What holds of an operation between its lines: of the memories, HDR, its frame, the frames since and its channel. -/
abbrev StagePred := Memory → Vector Half 2 → Frame → List (Half × Half) → Channel → Prop

/-- The operation is in one of its stages. -/
def State.Amid (s : State) (rest : List Frame) (n : Nat) (Stage : StagePred) (u : State) : Prop :=
  ∃ g frames ch, s.Within u rest n g frames ch ∧ Stage u.mem u.hdr g frames ch

/-- The operation has ended: by a fault, or by the return of its line `last` in a stage of it. -/
def State.Ended (s : State) (rest : List Frame) (n last : Nat) (Stage : StagePred) (t : State) : Prop :=
  (t.mode = .fault ∧ t.pc = []) ∨ ∃ u g frames ch, s.Within u rest n g frames ch ∧ g.line = last
    ∧ Stage u.mem u.hdr g frames ch ∧ t = u.ret

/-- A step leads to a stage of the operation, or to its end. -/
def State.Goes (s : State) (rest : List Frame) (n last : Nat) (Stage : StagePred) (t : State) : Prop :=
  s.Amid rest n Stage t ∨ s.Ended rest n last Stage t

/-- The stages of an operation: its link agent and its lines keep to them until it ends at line `last`. -/
structure State.Stages (s : State) (rest : List Frame) (n last : Nat) (Stage : StagePred) : Prop where
  linkOn : ∀ {mem hdr g frames ch}, Stage mem hdr g frames ch → ch.linkOn = true
  link : ∀ {mem hdr g frames ch new ch'}, Stage mem hdr g frames ch → ch.LinkStep new ch' →
    Stage mem hdr g (frames ++ new) ch'
  line : ∀ {u t g frames ch}, s.Within u rest n g frames ch → Stage u.mem u.hdr g frames ch → exec g.op u = .next t →
    s.Goes rest n last Stage t

section Runs

variable {s : State} {rest : List Frame} {n last : Nat} {Stage : StagePred}

theorem State.Stages.goes (h : s.Stages rest n last Stage) {u t : State} (hu : s.Amid rest n Stage u)
    (hstep : step u = .next t) : s.Goes rest n last Stage t := by
  obtain ⟨g, frames, ch, ⟨hrun, hparams, hreset, hchan, hframes⟩, hstage⟩ := hu
  rcases step_of_run hrun hreset with hexec | ⟨t', ht', hmove⟩
  · exact h.line (u := u.spendTurn) ⟨hrun, hparams, hreset, hchan, hframes⟩ hstage (hexec.symm.trans hstep)
  · cases ht'.symm.trans hstep
    have hkept := hmove.kept
    obtain ⟨new, ch', hchan', hframes', hlink⟩ := hmove.linkStep hchan (h.linkOn hstage)
    refine .inl ⟨g, frames ++ new, ch', ⟨⟨hkept.mode.trans hrun.1, hkept.pc.trans hrun.2⟩, hkept.params.trans hparams,
      ?_, hchan', ?_⟩, ?_⟩
    · rw [hkept.inbox]
      exact hreset
    · rw [hframes', State.spendTurn_trace, hframes, List.append_assoc]
    · rw [hkept.mem, hkept.hdr]
      exact h.link hstage hlink

/-- The stack of an operation that has ended is no deeper than its caller's. -/
theorem State.Ended.shallow {t : State} (h : s.Ended rest n last Stage t) : t.pc.length ≤ rest.length := by
  rcases h with ⟨-, hpc⟩ | ⟨u, g, frames, ch, hu, -, -, rfl⟩
  · simp [hpc]
  · rw [State.ret_eq_returned hu.running]
    cases rest with
    | nil => exact Nat.le_refl 0
    | cons g gs => exact Nat.le_refl (gs.length + 1)

/-- The first return of an operation is its end, whatever the agents do between: by induction on the steps. -/
theorem State.Stages.ended_of_firstReturn (h : s.Stages rest n last Stage) : ∀ (k : Nat) {u t : State}, s.Amid rest n Stage u →
    firstReturn u t k rest.length → s.Ended rest n last Stage t
  | 0, u, t, hu, ⟨hx, hshallow, _⟩ => by
    cases hx
    obtain ⟨g, frames, ch, hwithin, -⟩ := hu
    simp only [hwithin.running.2, List.length_cons] at hshallow
    omega
  | k + 1, u, t, hu, ⟨hx, hshallow, hdeep⟩ => by
    obtain ⟨u', hu', hx⟩ := run_succ_next hx
    have hdeep' : ∀ m v, m < k → Host.Core.run core m u' = .next v → rest.length < v.pc.length :=
      fun m v hm hv => hdeep (m + 1) v (by omega) ((run_succ hu' m).trans hv)
    rcases h.goes hu hu' with hamid | hended
    · exact h.ended_of_firstReturn k hamid ⟨hx, hshallow, hdeep'⟩
    · cases k with
      | zero => cases hx; exact hended
      | succ k =>
        have hlong := hdeep' 0 u' (by omega) rfl
        have hshort := hended.shallow
        omega

/-! Lines of an operation in its stages -/

section Line

variable {u t : State} {g : Frame} {frames : List (Half × Half)} {ch : Channel} (hu : s.Within u rest n g frames ch)

include hu

theorem goes_setTop {g' : Frame} (hstage : Stage u.mem u.hdr g' frames ch) :
    s.Goes rest n last Stage (u.setTop g') := by
  refine .inl ⟨g', frames, ch, ⟨⟨hu.running.1, ?_⟩, hu.params, hu.noReset, hu.chan, hu.frames⟩, hstage⟩
  rw [State.setTop_of_running hu.running]

theorem goes_access {g' : Frame} {ch' : Channel} (polls : Nat) (hstage : Stage u.mem u.hdr g' frames ch') :
    s.Goes rest n last Stage { (u.setChan n ch').setTop g' with polls := polls } := by
  refine .inl ⟨g', frames, ch', ⟨⟨hu.running.1, ?_⟩, hu.params, hu.noReset, State.getElem?_setChan hu.chan ch', hu.frames⟩,
    hstage⟩
  show g' :: u.pc.tail = g' :: rest
  rw [hu.running.2]
  rfl

theorem goes_stay {ch' : Channel} (polls : Nat) (hstage : Stage u.mem u.hdr g frames ch') :
    s.Goes rest n last Stage { u.setChan n ch' with polls := polls } :=
  .inl ⟨g, frames, ch', ⟨hu.running, hu.params, hu.noReset, State.getElem?_setChan hu.chan ch', hu.frames⟩, hstage⟩

theorem goes_ret (hlast : g.line = last) (hstage : Stage u.mem u.hdr g frames ch) :
    s.Goes rest n last Stage u.ret :=
  .inr (.inr ⟨u, g, frames, ch, hu, hlast, hstage, rfl⟩)

theorem goes_assertLine {cond : Bool} {x : FaultCause} {info : Word} (h : assertLine cond x info g u = .next t)
    (hpass : cond = true → Stage u.mem u.hdr g.next frames ch) : s.Goes rest n last Stage t := by
  rcases assertLine_next h with ⟨hcond, rfl⟩ | ⟨-, rfl⟩
  · exact goes_setTop hu (hpass hcond)
  · exact .inr (.inl ⟨rfl, rfl⟩)

theorem goes_loopHead {c : Byte} (h : loopHead c g u = .next t)
    (hstage : Stage u.mem u.hdr { g.next with idx := 0#16 } frames ch) : s.Goes rest n last Stage t := by
  obtain ⟨-, rfl⟩ := loopHead_next h
  exact goes_setTop hu hstage

theorem goes_waitUntil {fl : Flag} {v : Bool} (h : waitUntil n fl v g u = .next t)
    (hpass : ch.flag fl = v → Stage u.mem u.hdr g.next frames ch.polled)
    (hstay : Stage u.mem u.hdr g frames ch.polled) : s.Goes rest n last Stage t := by
  obtain ⟨ch₀, hch₀, hcase⟩ := waitUntil_next h
  cases hu.chan.symm.trans hch₀
  rw [Channel.afterStatusRead_eq] at hcase
  rcases hcase with ⟨hflag, rfl⟩ | ⟨-, -, rfl⟩ | ⟨-, -, rfl⟩ | ⟨-, -, rfl⟩
  · exact goes_access hu 0 (hpass hflag)
  · exact goes_stay hu u.polls hstay
  · exact goes_stay hu (u.polls + 1) hstay
  · exact .inr (.inl ⟨rfl, rfl⟩)

theorem goes_regRead {r : Reg} {k : Half → Frame} (h : regRead n r u (fun d u' => .next (u'.setTop (k d))) = .next t)
    (hstage : Stage u.mem u.hdr (k (ch.readValue r)) frames (ch.afterRead r)) : s.Goes rest n last Stage t := by
  rw [regRead_of_chan hu.chan] at h
  cases h
  exact goes_access hu u.polls hstage

theorem goes_dataWrite {v : Half} {g' : Frame} (h : regWrite n .data v u (fun u' => .next (u'.setTop g')) = .next t)
    (hstage : ch.txe = true → Stage u.mem u.hdr g' frames (ch.afterDataWrite v)) : s.Goes rest n last Stage t := by
  obtain ⟨ch₀, ch', hch₀, hw, hk⟩ := regWrite_next h
  cases hu.chan.symm.trans hch₀
  cases hk
  by_cases htxe : ch.txe = true
  · cases (Channel.afterWrite_data htxe v).symm.trans hw
    exact goes_access hu u.polls (hstage htxe)
  · simp [Channel.afterWrite, htxe] at hw

theorem goes_bufWrite {buf : Word} {i : Nat} {v : Half} {w : State} {g' : Frame} (h : u.bufWrite buf i v = some w)
    (hstage : Stage w.mem w.hdr g' frames ch) : s.Goes rest n last Stage (w.setTop g') := by
  have hw : s.Within w rest n g frames ch := by
    obtain ⟨heq, -, -⟩ := bufWrite_frame h
    rw [heq]
    exact ⟨hu.running, hu.params, hu.noReset, hu.chan, hu.frames⟩
  exact goes_setTop hw hstage

end Line

end Runs

end Sys2Proof.Machine
end

section
/-! O36: the stages of SPI_TRANSFER. -/

namespace Sys2Proof.Machine

/-- The stages of SPI_TRANSFER entered on channel `c` (R138): before the loop nothing has been given; at index `i` of the
loop the first `i` cells have; after it all of them; and once BSY has fallen all have been sent, and the two dummy reads
clear RXNE and OVR. -/
inductive TransferStage (c : Channel) (count : Half) (cells : List Half) (g : Frame) (frames : List (Half × Half))
    (ch : Channel) : Prop
  | entry (hlo : 1 ≤ g.line) (hhi : g.line ≤ 4) (hcount : 2 < g.line → count ≠ 0#16)
      (hx : c.Exchanging [] frames ch)
  | loop (hlo : 5 ≤ g.line) (hhi : g.line ≤ 7) (hidx : g.idx.toNat < count.toNat)
      (hcell : g.line = 7 → cells[g.idx.toNat]? = some g.tmp)
      (hx : c.Exchanging ((cells.take g.idx.toNat).map (· &&& c.mask)) frames ch)
  | flush (hlo : 8 ≤ g.line) (hhi : g.line ≤ 9) (hcount : count ≠ 0#16) (htxe : g.line = 9 → ch.txe = true)
      (hx : c.Exchanging (cells.map (· &&& c.mask)) frames ch)
  | drain (hlo : 10 ≤ g.line) (hhi : g.line ≤ 12) (hready : ch.ready = true) (hbsy : ch.bsy = false)
      (hsent : frames.map Prod.fst = cells.map (· &&& c.mask))
      (hrxbuf : some ch.rxbuf = if c.rxne then some c.rxbuf else (frames.map Prod.snd)[0]?)
      (hread : 10 < g.line → ch.rxne = false ∧ (ch.ovr = true → ch.ovrArm = true))
      (hclear : 11 < g.line → ch.ovr = false ∧ ch.ovrArm = false)

namespace TransferStage

variable {c : Channel} {count : Half} {cells : List Half} {g : Frame} {frames : List (Half × Half)} {ch : Channel}

theorem linkOn (h : TransferStage c count cells g frames ch) : ch.linkOn = true := by
  cases h with
  | drain _ _ hready => exact (ch.ready_iff.mp hready).1
  | entry _ _ _ hx | loop _ _ _ _ hx | flush _ _ _ _ hx => exact hx.linkOn

theorem link (h : TransferStage c count cells g frames ch) {new : List (Half × Half)} {ch' : Channel}
    (hlink : ch.LinkStep new ch') : TransferStage c count cells g (frames ++ new) ch' := by
  cases h with
  | entry hlo hhi hcount hx => exact .entry hlo hhi hcount (hx.link hlink)
  | loop hlo hhi hidx hcell hx => exact .loop hlo hhi hidx hcell (hx.link hlink)
  | flush hlo hhi hcount htxe hx => exact .flush hlo hhi hcount (fun hl => hlink.txe (htxe hl)) (hx.link hlink)
  | drain hlo hhi hready hbsy hsent hrxbuf hread hclear =>
    obtain ⟨rfl, rfl⟩ := hlink.of_ready hready
    rw [List.append_nil]
    exact .drain hlo hhi hready hbsy hsent hrxbuf hread hclear

end TransferStage

/-- The stages of SPI_TRANSFER with what it leaves: the memories and HDR (R146). -/
def transferStage (s : State) (i : Instr) (c : Channel) (count : Half) (cells : List Half) : StagePred :=
  fun mem hdr g frames ch => mem = s.mem ∧ hdr = s.hdr ∧ g.op = i ∧ TransferStage c count cells g frames ch

section Transfer

variable {s u t : State} {rest : List Frame} {ch : Byte} {count : Half} {buf : Word} {c : Channel} {cells : List Half}
  {g : Frame} {frames : List (Half × Half)} {cc : Channel}
  (hu : s.Within u rest ch.toNat g frames cc) (hmem : u.mem = s.mem) (hhdr : u.hdr = s.hdr)
  (hop : g.op = .spiTransfer ch count buf) (hexec : exec g.op u = .next t)

include hu hmem hhdr hop hexec

/-- Lines 1 to 4: the assertions, and the loop begins with the first cell. -/
theorem transfer_entry (hlo : 1 ≤ g.line) (hhi : g.line ≤ 4) (hcount : 2 < g.line → count ≠ 0#16)
    (hx : c.Exchanging [] frames cc) :
    s.Goes rest ch.toNat 12 (transferStage s (.spiTransfer ch count buf) c count cells) t := by
  rw [hop, exec, execSpiTransfer, operation_of_running hu.running] at hexec
  have hlines : g.line = 1 ∨ g.line = 2 ∨ g.line = 3 ∨ g.line = 4 := by omega
  rcases hlines with hl | hl | hl | hl <;> simp only [hl] at hexec
  · exact goes_assertLine hu hexec fun _ => ⟨hmem, hhdr, hop, .entry (by simp) (by simp [hl]) (by simp [hl]) hx⟩
  · exact goes_assertLine hu hexec fun hne =>
      ⟨hmem, hhdr, hop, .entry (by simp) (by simp [hl]) (fun _ => by simpa using hne) hx⟩
  · exact goes_assertLine hu hexec fun _ =>
      ⟨hmem, hhdr, hop, .entry (by simp) (by simp [hl]) (fun _ => hcount (by omega)) hx⟩
  · have hpos : 0 < count.toNat := Nat.pos_of_ne_zero fun h => hcount (by omega) (BitVec.eq_of_toNat_eq h)
    exact goes_loopHead hu hexec ⟨hmem, hhdr, hop, .loop (by simp [hl]) (by simp [hl]) hpos (by simp [hl]) hx⟩

/-- Lines 5 to 7: the poll, the cell, and its word written to DATA. -/
theorem transfer_loop (hcells : s.firstCells buf count.toNat cells) (hlo : 5 ≤ g.line) (hhi : g.line ≤ 7)
    (hidx : g.idx.toNat < count.toNat) (hcell : g.line = 7 → cells[g.idx.toNat]? = some g.tmp)
    (hx : c.Exchanging ((cells.take g.idx.toNat).map (· &&& c.mask)) frames cc) :
    s.Goes rest ch.toNat 12 (transferStage s (.spiTransfer ch count buf) c count cells) t := by
  rw [hop, exec, execSpiTransfer, operation_of_running hu.running] at hexec
  have hlines : g.line = 5 ∨ g.line = 6 ∨ g.line = 7 := by omega
  rcases hlines with hl | hl | hl <;> simp only [hl] at hexec
  · exact goes_waitUntil hu hexec
      (fun _ => ⟨hmem, hhdr, hop, .loop (by simp [hl]) (by simp [hl]) hidx (by simp [hl]) hx.polled⟩)
      ⟨hmem, hhdr, hop, .loop hlo hhi hidx hcell hx.polled⟩
  · obtain ⟨e, he, rfl⟩ := fetchCell_next hexec
    have hread : s.bufRead buf g.idx.toNat = some e := by
      rw [← he, State.bufRead_congr hu.params hhdr (by rw [hmem])]
    rw [hcells.2 _ hidx] at hread
    exact goes_setTop hu ⟨hmem, hhdr, hop, .loop (by simp [hl]) (by simp [hl]) hidx (fun _ => hread) hx⟩
  · refine goes_dataWrite hu hexec fun htxe => ⟨hmem, hhdr, by simp [hop], ?_⟩
    have hgiven := hx.dataWrite htxe g.tmp
    have htake : (cells.take g.idx.toNat).map (· &&& c.mask) ++ [g.tmp &&& c.mask]
        = (cells.take (g.idx.toNat + 1)).map (· &&& c.mask) := by
      rw [List.take_add_one, hcell hl]
      simp
    rw [htake] at hgiven
    by_cases hagain : g.idx.toNat + 1 < count.toNat
    · rw [Frame.loop_again hagain]
      have hnext := toNat_next_idx hagain
      exact .loop (by simp) (by simp) (by simpa only [hnext] using hagain) nofun (by rw [hnext]; exact hgiven)
    · have hdone : g.idx.toNat + 1 = count.toNat := by omega
      have hnonzero : count ≠ 0#16 := by rintro rfl; simp at hdone
      rw [hdone, List.take_of_length_le (Nat.le_of_eq hcells.1)] at hgiven
      rw [Frame.loop_done hdone]
      exact .flush (by simp) (by simp) hnonzero nofun hgiven

/-- Lines 8 and 9: once TXE = 1 and BSY = 0 every word has been sent. -/
theorem transfer_flush (hcells : s.firstCells buf count.toNat cells) (hlo : 8 ≤ g.line) (hhi : g.line ≤ 9)
    (hcount : count ≠ 0#16) (htxe : g.line = 9 → cc.txe = true)
    (hx : c.Exchanging (cells.map (· &&& c.mask)) frames cc) :
    s.Goes rest ch.toNat 12 (transferStage s (.spiTransfer ch count buf) c count cells) t := by
  rw [hop, exec, execSpiTransfer, operation_of_running hu.running] at hexec
  have hlines : g.line = 8 ∨ g.line = 9 := by omega
  rcases hlines with hl | hl <;> simp only [hl] at hexec
  · exact goes_waitUntil hu hexec
      (fun hflag => ⟨hmem, hhdr, hop, .flush (by simp [hl]) (by simp [hl]) hcount (fun _ => hflag) hx.polled⟩)
      ⟨hmem, hhdr, hop, .flush hlo hhi hcount htxe hx.polled⟩
  · refine goes_waitUntil hu hexec (fun hbsy => ⟨hmem, hhdr, hop, ?_⟩)
      ⟨hmem, hhdr, hop, .flush hlo hhi hcount htxe hx.polled⟩
    have hshift : cc.shiftActive = false := by
      by_contra hactive
      have hbusy := hx.busy (by simpa using hactive)
      exact absurd (hbusy.symm.trans hbsy) nofun
    have hsent := hx.sent (htxe hl) hshift
    have hlen : frames.length = count.toNat := by
      rw [← hcells.1, ← List.length_map (f := Prod.fst), hsent, List.length_map]
    have hready : cc.polled.ready = true := cc.ready_iff.mpr ⟨hx.linkOn, htxe hl, hshift⟩
    refine .drain (by simp [hl]) (by simp [hl]) hready hbsy hsent ?_ (by simp [hl]) (by simp [hl])
    show some cc.rxbuf = _
    rw [hx.rxbuf]
    cases frames with
    | nil => exact absurd (BitVec.eq_of_toNat_eq hlen.symm) hcount
    | cons p frames => cases c.rxne <;> rfl

/-- Lines 10 to 12: the dummy reads of DATA and STATUS, and the return. -/
theorem transfer_drain (hlo : 10 ≤ g.line) (hhi : g.line ≤ 12) (hready : cc.ready = true) (hbsy : cc.bsy = false)
    (hsent : frames.map Prod.fst = cells.map (· &&& c.mask))
    (hrxbuf : some cc.rxbuf = if c.rxne then some c.rxbuf else (frames.map Prod.snd)[0]?)
    (hread : 10 < g.line → cc.rxne = false ∧ (cc.ovr = true → cc.ovrArm = true))
    (hclear : 11 < g.line → cc.ovr = false ∧ cc.ovrArm = false) :
    s.Goes rest ch.toNat 12 (transferStage s (.spiTransfer ch count buf) c count cells) t := by
  rw [hop, exec, execSpiTransfer, operation_of_running hu.running] at hexec
  have hlines : g.line = 10 ∨ g.line = 11 ∨ g.line = 12 := by omega
  rcases hlines with hl | hl | hl <;> simp only [hl] at hexec
  · refine goes_regRead hu hexec ⟨hmem, hhdr, hop, .drain (by simp [hl]) (by simp [hl]) hready hbsy hsent hrxbuf
      (fun _ => ⟨rfl, fun hovr => ?_⟩) (by simp [hl])⟩
    exact Bool.or_eq_true_iff.mpr (.inr hovr)
  · obtain ⟨hrxne, harm⟩ := hread (by omega)
    refine goes_regRead hu hexec ⟨hmem, hhdr, hop, ?_⟩
    have hcleared : (cc.ovr && !cc.ovrArm) = false := by
      cases hovr : cc.ovr with
      | false => rfl
      | true => rw [harm hovr]; rfl
    rw [Channel.afterRead, Channel.afterStatusRead_eq]
    exact .drain (by simp [hl]) (by simp [hl]) hready hbsy hsent hrxbuf (fun _ => ⟨hrxne, by simp [hcleared]⟩)
      (fun _ => ⟨hcleared, rfl⟩)
  · cases hexec
    exact goes_ret hu hl ⟨hmem, hhdr, hop, .drain hlo hhi hready hbsy hsent hrxbuf hread hclear⟩

end Transfer

theorem stages_transfer {s : State} (rest : List Frame) {ch : Byte} {count : Half} {buf : Word} (c : Channel)
    {cells : List Half} (hcells : s.firstCells buf count.toNat cells) :
    s.Stages rest ch.toNat 12 (transferStage s (.spiTransfer ch count buf) c count cells) where
  linkOn := fun ⟨_, _, _, h⟩ => h.linkOn
  link := fun ⟨hmem, hhdr, hop, h⟩ hlink => ⟨hmem, hhdr, hop, h.link hlink⟩
  line := fun hu ⟨hmem, hhdr, hop, h⟩ hexec => by
    cases h with
    | entry hlo hhi hcount hx => exact transfer_entry hu hmem hhdr hop hexec hlo hhi hcount hx
    | loop hlo hhi hidx hcell hx => exact transfer_loop hu hmem hhdr hop hexec hcells hlo hhi hidx hcell hx
    | flush hlo hhi hcount htxe hx => exact transfer_flush hu hmem hhdr hop hexec hcells hlo hhi hcount htxe hx
    | drain hlo hhi hready hbsy hsent hrxbuf hread hclear =>
      exact transfer_drain hu hmem hhdr hop hexec hlo hhi hready hbsy hsent hrxbuf hread hclear

/-- STATUS with TXE alone (R68). -/
theorem statusWord_of_flags {ch : Channel} (hrxne : ch.rxne = false) (htxe : ch.txe = true) (hovr : ch.ovr = false)
    (hbsy : ch.bsy = false) : ch.statusWord = 0x0002#16 := by
  simp only [Channel.statusWord, hrxne, htxe, hovr, hbsy]
  rfl

/-- Settles O36: an SPI_TRANSFER that returns without a fault does so in its last stage. -/
theorem transferInEveryInterleaving : Obligations.TransferInEveryInterleaving := by
  intro s t n f rest ch count buf c cells hrun hentry hc hready hcells hreset hfirst hsafe
  obtain ⟨hop, hl⟩ := hentry
  have hstart : s.Amid rest ch.toNat (transferStage s (.spiTransfer ch count buf) c count cells) s :=
    ⟨f, [], c, ⟨hrun, rfl, hreset, hc, (List.append_nil _).symm⟩, rfl, rfl, hop,
      .entry (by omega) (by omega) (by omega) (.begin hready)⟩
  rcases (stages_transfer rest c hcells).ended_of_firstReturn n hstart hfirst with
    ⟨hfault, -⟩ | ⟨u, g, frames, cc, hu, hlast, ⟨hmem, hhdr, -, hstage⟩, rfl⟩
  · exact absurd hfault hsafe
  cases hstage with
  | entry | loop | flush => omega
  | drain hlo hhi hccready hbsy hsent hrxbuf hread hclear =>
    obtain ⟨-, htxe, hshift⟩ := cc.ready_iff.mp hccready
    obtain ⟨hrxne, -⟩ := hread (by omega)
    obtain ⟨hovr, harm⟩ := hclear (by omega)
    refine ⟨(State.ret_returnedTo hu.running).1, frames.map Prod.snd, cc, ?_, ?_, ?_,
      statusWord_of_flags hrxne htxe hovr hbsy, hshift, harm, hrxbuf, fun ref k => ?_⟩
    · rw [List.length_map, ← hcells.1, ← List.length_map (f := Prod.fst), hsent, List.length_map]
    · rw [State.ret_trace, hu.frames, ← hsent, ← List.zip_of_prod rfl rfl]
    · rw [State.ret_chans, hu.chan]
    · exact State.bufRead_congr ((State.ret_params u).trans hu.params) ((State.ret_hdr u).trans hhdr)
        (by rw [State.ret_mem, hmem]) k

end Sys2Proof.Machine
end

section
/-! O37: the stages of SPI_RECEIVE. -/

namespace Sys2Proof.Machine

/-- The channel at rest with nothing received and no overrun (R142). -/
structure Channel.Quiet (ch : Channel) : Prop where
  ready : ch.ready = true
  rxne : ch.rxne = false
  ovr : ch.ovr = false

/-- The frames have sent 0, and the words received in them are the first cells of the buffer; every other cell is as in
`s` (R142). -/
structure State.Collected (s : State) (buf : Word) (mem : Memory) (hdr : Vector Half 2) (frames : List (Half × Half)) :
    Prop where
  sent : ∀ p ∈ frames, p.1 = 0#16
  stored : s.Stored buf 0 (frames.map Prod.snd) mem hdr

/-- The channel when a word has come in (R142, R193). -/
structure Channel.Arrived (ch : Channel) (rx : Half) : Prop where
  ready : ch.ready = true
  bsy : ch.bsy = false
  ovr : ch.ovr = false
  rxbuf : ch.rxbuf = rx

/-- The stages of SPI_RECEIVE (R141): before the loop; at each index the dummy, the wait for its frame, the read of its
word and the store, the words of the indices before in their cells; and the end with all of them in theirs. -/
inductive ReceiveStage (s : State) (count : Half) (buf : Word) (mem : Memory) (hdr : Vector Half 2) (g : Frame) :
    List (Half × Half) → Channel → Prop
  | entry {ch : Channel} (hlo : 1 ≤ g.line) (hhi : g.line ≤ 4) (hcount : 2 < g.line → count ≠ 0#16) (hquiet : ch.Quiet)
      (hdone : s.Collected buf mem hdr []) : ReceiveStage s count buf mem hdr g [] ch
  | dummy {done : List (Half × Half)} {ch : Channel} (hl : g.line = 5) (hidx : g.idx.toNat < count.toNat)
      (hlen : done.length = g.idx.toNat) (hquiet : ch.Quiet) (hdone : s.Collected buf mem hdr done) :
      ReceiveStage s count buf mem hdr g done ch
  | wait {done new : List (Half × Half)} {c ch : Channel} (hl : g.line = 6) (hidx : g.idx.toNat < count.toNat)
      (hlen : done.length = g.idx.toNat) (hquiet : c.Quiet) (hx : c.Exchanging [0#16] new ch)
      (hdone : s.Collected buf mem hdr done) : ReceiveStage s count buf mem hdr g (done ++ new) ch
  | word {done : List (Half × Half)} {rx : Half} {ch : Channel} (hlo : 7 ≤ g.line) (hhi : g.line ≤ 8)
      (hidx : g.idx.toNat < count.toNat) (hlen : done.length = g.idx.toNat) (harrived : ch.Arrived rx)
      (hread : g.line = 8 → g.tmp = rx ∧ ch.rxne = false) (hdone : s.Collected buf mem hdr done) :
      ReceiveStage s count buf mem hdr g (done ++ [(0#16, rx)]) ch
  | finish {done : List (Half × Half)} {ch : Channel} (hl : g.line = 9) (hlen : done.length = count.toNat)
      (hquiet : ch.Quiet) (hbsy : ch.bsy = false) (hdone : s.Collected buf mem hdr done) :
      ReceiveStage s count buf mem hdr g done ch

namespace ReceiveStage

variable {s : State} {count : Half} {buf : Word} {mem : Memory} {hdr : Vector Half 2} {g : Frame}
  {frames : List (Half × Half)} {ch : Channel}

/-- The channel is at rest, or its frame is under way. -/
theorem ready_or_wait (h : ReceiveStage s count buf mem hdr g frames ch) : ch.ready = true
    ∨ ∃ (done new : List (Half × Half)) (c : Channel), frames = done ++ new ∧ g.line = 6 ∧ g.idx.toNat < count.toNat ∧ done.length = g.idx.toNat
      ∧ c.Quiet ∧ c.Exchanging [0#16] new ch ∧ s.Collected buf mem hdr done := by
  cases h with
  | entry _ _ _ hquiet | dummy _ _ _ hquiet | finish _ _ hquiet => exact .inl hquiet.ready
  | word _ _ _ _ harrived => exact .inl harrived.ready
  | wait hl hidx hlen hquiet hx hdone => exact .inr ⟨_, _, _, rfl, hl, hidx, hlen, hquiet, hx, hdone⟩

theorem linkOn (h : ReceiveStage s count buf mem hdr g frames ch) : ch.linkOn = true := by
  rcases h.ready_or_wait with hready | ⟨done, new, c, -, -, -, -, -, hx, -⟩
  · exact (ch.ready_iff.mp hready).1
  · exact hx.linkOn

theorem link (h : ReceiveStage s count buf mem hdr g frames ch) {new : List (Half × Half)} {ch' : Channel}
    (hlink : ch.LinkStep new ch') : ReceiveStage s count buf mem hdr g (frames ++ new) ch' := by
  rcases h.ready_or_wait with hready | ⟨done, before, c, rfl, hl, hidx, hlen, hquiet, hx, hdone⟩
  · obtain ⟨rfl, rfl⟩ := hlink.of_ready hready
    rwa [List.append_nil]
  · rw [List.append_assoc]
    exact .wait hl hidx hlen hquiet (hx.link hlink) hdone

end ReceiveStage

/-- A word that is waited for has come in when RXNE = 1 (R141, R193). -/
theorem Channel.Exchanging.arrived {c ch : Channel} {new : List (Half × Half)} (hx : c.Exchanging [0#16] new ch)
    (hquiet : c.Quiet) (hrxne : ch.rxne = true) : ∃ rx, new = [(0#16, rx)] ∧ ch.Arrived rx := by
  have hfirst : new ≠ [] := by
    rintro rfl
    simp [hx.rxne, hquiet.rxne] at hrxne
  obtain ⟨⟨tx, rx⟩, later, rfl⟩ := List.exists_cons_of_ne_nil hfirst
  have hgiven := hx.given
  simp only [List.map_cons, List.cons_append, List.cons.injEq, List.append_eq_nil_iff, List.map_eq_nil_iff] at hgiven
  obtain ⟨rfl, rfl, hnone⟩ := hgiven
  obtain ⟨htxe, hshift⟩ := Channel.idle_of_pending_eq_nil hnone
  refine ⟨rx, rfl, ch.ready_iff.mpr ⟨hx.linkOn, htxe, hshift⟩, ?_, hx.overrun hquiet.rxne hquiet.ovr (by simp), ?_⟩
  · by_contra hbsy
    have hpending := hx.quiet hfirst (by simpa using hbsy)
    simp [hshift, htxe] at hpending
  · rw [hx.rxbuf, hquiet.rxne]
    rfl

theorem Channel.Arrived.polled {ch : Channel} {rx : Half} (h : ch.Arrived rx) : ch.polled.Arrived rx :=
  ⟨h.ready, h.bsy, by simp [Channel.polled, h.ovr], h.rxbuf⟩

theorem State.bufRead_withMem {s w : State} (hparams : w.params = s.params) (ref : Word) (k : Nat) :
    (s.withMem w.mem w.hdr).bufRead ref k = w.bufRead ref k :=
  State.bufRead_congr (s := w) (t := s.withMem w.mem w.hdr) hparams.symm rfl rfl k

/-- The word stored in the next cell. -/
theorem State.Collected.store {s u w : State} {buf : Word} {done : List (Half × Half)} {rx : Half}
    (h : s.Collected buf u.mem u.hdr done) (hparams : u.params = s.params)
    (hw : u.bufWrite buf done.length rx = some w) : s.Collected buf w.mem w.hdr (done ++ [(0#16, rx)]) := by
  obtain ⟨hcell, hothers⟩ := bufRead_of_bufWrite hw
  have hwparams : w.params = s.params := by rw [(bufWrite_frame hw).1, hparams]
  have hold := h.stored.cells
  have hkept := h.stored.others
  simp only [State.bufRead_withMem hparams, List.length_map, Nat.zero_add] at hold hkept
  refine ⟨fun p hp => ?_, fun k hk => ?_, fun ref k hk => ?_⟩
  · rcases List.mem_append.mp hp with hp | hp
    · exact h.sent p hp
    · rw [List.mem_singleton.mp hp]
  · simp only [List.map_append, List.map_cons, List.map_nil, List.length_append, List.length_map, List.length_singleton]
      at hk ⊢
    rw [State.bufRead_withMem hwparams, Nat.zero_add]
    by_cases hlast : k = done.length
    · rw [hlast, hcell, List.getElem?_append_right (by simp)]
      simp
    · rw [hothers buf k (.inr hlast), hold k (by omega), List.getElem?_append_left (by simp; omega)]
  · simp only [List.map_append, List.map_cons, List.map_nil, List.length_append, List.length_map, List.length_singleton]
      at hk
    rw [State.bufRead_withMem hwparams, hothers ref k (hk.imp_right (by omega)), hkept ref k (hk.imp_right (by omega))]

/-- The stages of SPI_RECEIVE as its frame shows them. -/
def receiveStage (s : State) (i : Instr) (count : Half) (buf : Word) : StagePred :=
  fun mem hdr g frames ch => g.op = i ∧ ReceiveStage s count buf mem hdr g frames ch

section Receive

variable {s u t : State} {rest : List Frame} {ch : Byte} {count : Half} {buf : Word} {g : Frame}
  {done : List (Half × Half)} {cc : Channel}

/-- Lines 1 to 4: the assertions, and the loop begins. -/
theorem receive_entry (hu : s.Within u rest ch.toNat g [] cc) (hop : g.op = .spiReceive ch count buf)
    (hexec : exec g.op u = .next t) (hlo : 1 ≤ g.line) (hhi : g.line ≤ 4) (hcount : 2 < g.line → count ≠ 0#16)
    (hquiet : cc.Quiet) (hdone : s.Collected buf u.mem u.hdr []) :
    s.Goes rest ch.toNat 9 (receiveStage s (.spiReceive ch count buf) count buf) t := by
  rw [hop, exec, execSpiReceive, operation_of_running hu.running] at hexec
  have hlines : g.line = 1 ∨ g.line = 2 ∨ g.line = 3 ∨ g.line = 4 := by omega
  rcases hlines with hl | hl | hl | hl <;> simp only [hl] at hexec
  · exact goes_assertLine hu hexec fun _ => ⟨hop, .entry (by simp) (by simp [hl]) (by simp [hl]) hquiet hdone⟩
  · exact goes_assertLine hu hexec fun hne =>
      ⟨hop, .entry (by simp) (by simp [hl]) (fun _ => by simpa using hne) hquiet hdone⟩
  · exact goes_assertLine hu hexec fun _ =>
      ⟨hop, .entry (by simp) (by simp [hl]) (fun _ => hcount (by omega)) hquiet hdone⟩
  · have hpos : 0 < count.toNat := Nat.pos_of_ne_zero fun h => hcount (by omega) (BitVec.eq_of_toNat_eq h)
    exact goes_loopHead hu hexec ⟨hop, .dummy (by simp [hl]) hpos rfl hquiet hdone⟩

/-- Line 5: the dummy, whose frame is waited for. -/
theorem receive_dummy (hu : s.Within u rest ch.toNat g done cc) (hop : g.op = .spiReceive ch count buf)
    (hexec : exec g.op u = .next t) (hl : g.line = 5) (hidx : g.idx.toNat < count.toNat)
    (hlen : done.length = g.idx.toNat) (hquiet : cc.Quiet) (hdone : s.Collected buf u.mem u.hdr done) :
    s.Goes rest ch.toNat 9 (receiveStage s (.spiReceive ch count buf) count buf) t := by
  rw [exec_spiReceive_dummy hu.running hop hl] at hexec
  refine goes_dataWrite hu hexec fun htxe => ⟨hop, ?_⟩
  have hgiven := (Channel.Exchanging.begin hquiet.ready).dataWrite htxe 0#16
  rw [List.nil_append, BitVec.zero_and] at hgiven
  have hwait := ReceiveStage.wait (g := g.next) (by simp [hl]) hidx hlen hquiet hgiven hdone
  rwa [List.append_nil] at hwait

/-- Line 6: RXNE = 1 says that the word has come in. -/
theorem receive_wait {new : List (Half × Half)} {c : Channel} (hu : s.Within u rest ch.toNat g (done ++ new) cc)
    (hop : g.op = .spiReceive ch count buf) (hexec : exec g.op u = .next t) (hl : g.line = 6)
    (hidx : g.idx.toNat < count.toNat) (hlen : done.length = g.idx.toNat) (hquiet : c.Quiet)
    (hx : c.Exchanging [0#16] new cc) (hdone : s.Collected buf u.mem u.hdr done) :
    s.Goes rest ch.toNat 9 (receiveStage s (.spiReceive ch count buf) count buf) t := by
  have hwaits : waits g.op g.line = some (ch, .rxne, true) := by simp [waits, hop, hl]
  rw [exec_of_waits hu.running hwaits] at hexec
  refine goes_waitUntil hu hexec (fun hrxne => ⟨hop, ?_⟩) ⟨hop, .wait hl hidx hlen hquiet hx.polled hdone⟩
  obtain ⟨rx, rfl, harrived⟩ := hx.arrived hquiet hrxne
  exact .word (by simp [hl]) (by simp [hl]) hidx hlen harrived.polled (by simp [hl]) hdone

/-- Lines 7 and 8: the word is read, and stored in its cell. -/
theorem receive_word {rx : Half} (hu : s.Within u rest ch.toNat g (done ++ [(0#16, rx)]) cc)
    (hop : g.op = .spiReceive ch count buf) (hexec : exec g.op u = .next t) (hlo : 7 ≤ g.line) (hhi : g.line ≤ 8)
    (hidx : g.idx.toNat < count.toNat) (hlen : done.length = g.idx.toNat) (harrived : cc.Arrived rx)
    (hread : g.line = 8 → g.tmp = rx ∧ cc.rxne = false) (hdone : s.Collected buf u.mem u.hdr done) :
    s.Goes rest ch.toNat 9 (receiveStage s (.spiReceive ch count buf) count buf) t := by
  have hlines : g.line = 7 ∨ g.line = 8 := by omega
  rcases hlines with hl | hl
  · rw [exec_spiReceive_readData hu.running hop hl] at hexec
    exact goes_regRead hu hexec ⟨hop, .word (by simp [hl]) (by simp [hl]) hidx hlen
      ⟨harrived.ready, harrived.bsy, harrived.ovr, harrived.rxbuf⟩ (fun _ => ⟨harrived.rxbuf, rfl⟩) hdone⟩
  · obtain ⟨htmp, hrxne⟩ := hread hl
    rw [exec_spiReceive_store hu.running hop hl] at hexec
    obtain ⟨w, hw, rfl⟩ := storeCell_next hexec
    rw [htmp, ← hlen] at hw
    have hmore := hdone.store hu.params hw
    have hquiet : cc.Quiet := ⟨harrived.ready, hrxne, harrived.ovr⟩
    refine goes_bufWrite hu hw ⟨by simp [hop], ?_⟩
    by_cases hagain : g.idx.toNat + 1 < count.toNat
    · have hnext := toNat_next_idx hagain
      rw [Frame.loop_again hagain]
      exact .dummy rfl (by simpa only [hnext] using hagain) (by simp [hlen, hnext]) hquiet hmore
    · have hlast : g.idx.toNat + 1 = count.toNat := by omega
      rw [Frame.loop_done hlast]
      exact .finish rfl (by simp [hlen, hlast]) hquiet harrived.bsy hmore

end Receive

theorem stages_receive (s : State) (rest : List Frame) (ch : Byte) (count : Half) (buf : Word) :
    s.Stages rest ch.toNat 9 (receiveStage s (.spiReceive ch count buf) count buf) where
  linkOn := fun ⟨_, h⟩ => h.linkOn
  link := fun ⟨hop, h⟩ hlink => ⟨hop, h.link hlink⟩
  line := fun hu ⟨hop, h⟩ hexec => by
    cases h with
    | entry hlo hhi hcount hquiet hdone => exact receive_entry hu hop hexec hlo hhi hcount hquiet hdone
    | dummy hl hidx hlen hquiet hdone => exact receive_dummy hu hop hexec hl hidx hlen hquiet hdone
    | wait hl hidx hlen hquiet hx hdone => exact receive_wait hu hop hexec hl hidx hlen hquiet hx hdone
    | word hlo hhi hidx hlen harrived hread hdone =>
      exact receive_word hu hop hexec hlo hhi hidx hlen harrived hread hdone
    | finish hl hlen hquiet hbsy hdone =>
      rw [exec_spiReceive_return hu.running hop hl] at hexec
      cases hexec
      exact goes_ret hu hl ⟨hop, .finish hl hlen hquiet hbsy hdone⟩

/-- Settles O37: an SPI_RECEIVE that returns without a fault does so in its last stage. -/
theorem receiveInEveryInterleaving : Obligations.ReceiveInEveryInterleaving := by
  intro s t n f rest ch count buf c hrun hentry hc hready hrxne hovr hreset hfirst hsafe
  obtain ⟨hop, hl⟩ := hentry
  have hnothing : s.Collected buf s.mem s.hdr [] := ⟨nofun, nofun, fun _ _ _ => rfl⟩
  have hstart : s.Amid rest ch.toNat (receiveStage s (.spiReceive ch count buf) count buf) s :=
    ⟨f, [], c, ⟨hrun, rfl, hreset, hc, (List.append_nil _).symm⟩, hop,
      .entry (by omega) (by omega) (by omega) ⟨hready, hrxne, hovr⟩ hnothing⟩
  rcases (stages_receive s rest ch count buf).ended_of_firstReturn n hstart hfirst with
    ⟨hfault, -⟩ | ⟨u, g, frames, cc, hu, hlast, ⟨-, hstage⟩, rfl⟩
  · exact absurd hfault hsafe
  have hafter := State.bufRead_withMem (w := u.ret) ((State.ret_params u).trans hu.params)
  rw [State.ret_mem, State.ret_hdr] at hafter
  cases hstage with
  | entry | dummy | wait | word => omega
  | finish hl9 hlen hquiet hbsy hdone =>
    obtain ⟨-, htxe, hshift⟩ := cc.ready_iff.mp hquiet.ready
    have hzero : frames.map Prod.fst = List.replicate count.toNat 0x0000#16 := by
      refine List.eq_replicate_iff.mpr ⟨by simp [hlen], fun b hb => ?_⟩
      obtain ⟨p, hp, rfl⟩ := List.mem_map.mp hb
      exact hdone.sent p hp
    have hcells := hdone.stored.cells
    have hothers := hdone.stored.others
    simp only [List.length_map, hlen, Nat.zero_add, hafter] at hcells hothers
    refine ⟨(State.ret_returnedTo hu.running).1, frames.map Prod.snd, cc, by simp [hlen], ?_, hcells,
      fun ref k hk => hothers ref k (hk.imp_right .inr), ?_, statusWord_of_flags hquiet.rxne htxe hquiet.ovr hbsy, hshift⟩
    · rw [State.ret_trace, hu.frames, ← hzero, ← List.zip_of_prod rfl rfl]
    · rw [State.ret_chans, hu.chan]

end Sys2Proof.Machine
end

section
/-! R134 in closed form: what the RegFields of a record's lines 5 to 12 make, one after the other, of the two control
registers of its channel; and that a table of records programs no more when it runs again. -/

namespace Sys2Proof.Machine

/-! The RegFields of a record (R133) -/

/-- What a RegField makes of the two control registers of its channel (R9, R23, R26). -/
def Field.program (fld : Field) (v : Half) (old : Half × Half) : Half × Half :=
  if fld = .ssoe then (old.1, fld.insert old.2 v) else (fld.insert old.1 v, old.2)

/-- RegFields one after the other. -/
def programFields (fields : List (Field × Half)) (old : Half × Half) : Half × Half :=
  fields.foldl (fun old p => p.1.program p.2 old) old

theorem programFields_nil (old : Half × Half) : programFields [] old = old := rfl

theorem programFields_cons (p : Field × Half) (fields : List (Field × Half)) (old : Half × Half) :
    programFields (p :: fields) old = programFields fields (p.1.program p.2 old) := rfl

theorem programFields_append (fields fields' : List (Field × Half)) (old : Half × Half) :
    programFields (fields ++ fields') old = programFields fields' (programFields fields old) :=
  List.foldl_append

/-- The RegFields of the last `n` of the lines 5 to 12 (R133). -/
def fieldsOfLines (cfg : CfgRecord) : Nat → List (Field × Half)
  | 0 => []
  | n + 1 => (initFields (12 - n) cfg).getD [] ++ fieldsOfLines cfg n

theorem recordLegal_iff (r : CfgRecord) : recordLegal r = true ↔ r.mode.toNat < 4 ∧ r.role.toNat < 2
    ∧ r.baud.toNat < 8 ∧ r.ss.toNat < 3 ∧ r.order.toNat < 2 ∧ r.xfer.toNat < 2 ∧ r.size.toNat < 2 := by
  simp [recordLegal, and_assoc]

theorem ss_cases : ∀ b : Byte, b.toNat < 3 → b = 0#8 ∨ b = 1#8 ∨ b = 2#8 := by decide

/-- A line of a legal record programs its fields (R100). -/
theorem initFields_of_legal {cfg : CfgRecord} (h : recordLegal cfg = true) (line : Nat) :
    ∃ fields, initFields line cfg = some fields := by
  obtain ⟨hmode, hrole, hbaud, hss, horder, hxfer, hsize⟩ := (recordLegal_iff cfg).mp h
  unfold initFields
  split
  case h_4 => rcases ss_cases _ hss with hss | hss | hss <;> simp [ssFields, hss]
  case h_8 => exact ⟨_, rfl⟩
  all_goals exact ⟨_, if_pos ‹_›⟩

theorem fieldsOfLines_legal {cfg : CfgRecord} (h : recordLegal cfg = true) : fieldsOfLines cfg 8 =
    [(Field.polarity, bitHalf (cfg.mode.getLsbD 1)), (Field.phase, bitHalf (cfg.mode.getLsbD 0)),
        (Field.role, cfg.role.toHalf), (Field.baud, cfg.baud.toHalf)]
      ++ ((ssFields cfg.ss).getD [] ++ [(Field.bitorder, cfg.order.toHalf), (Field.rxonly, cfg.xfer.toHalf),
        (Field.frame, cfg.size.toHalf), (Field.enable, 1#16)]) := by
  obtain ⟨hmode, hrole, hbaud, hss, horder, hxfer, hsize⟩ := (recordLegal_iff cfg).mp h
  simp [fieldsOfLines, initFields, hmode, hrole, hbaud, horder, hxfer, hsize]

/-- The lines 5 to 12 take two steps for each RegField (R82). -/
theorem fieldsOfLines_length {cfg : CfgRecord} (h : recordLegal cfg = true) :
    2 * (fieldsOfLines cfg 8).length = initSteps cfg := by
  rw [fieldsOfLines_legal h]
  rcases ss_cases _ ((recordLegal_iff cfg).mp h).2.2.2.1 with hss | hss | hss <;> simp [ssFields, initSteps, hss]

/-! Bit by bit -/

theorem mode_bits : ∀ b : Byte, b.toNat < 4 → b.toHalf = bitHalf (b.getLsbD 1) <<< 1 ||| bitHalf (b.getLsbD 0) := by
  decide

theorem baud_bits : ∀ b : Byte, b.toNat < 8 →
    b.toHalf = bitHalf (b.getLsbD 2) <<< 2 ||| bitHalf (b.getLsbD 1) <<< 1 ||| bitHalf (b.getLsbD 0) := by
  decide

theorem getLsbD_bitHalf (b : Bool) (i : Nat) : (bitHalf b).getLsbD i = (decide (i = 0) && b) := by
  cases b <;> cases i <;> simp [bitHalf]

/-- A RegField's write replaces the bits of its field and keeps the others (R9). -/
theorem Field.getLsbD_insert (fld : Field) (old v : Half) {i : Nat} (hi : i < 16) :
    (fld.insert old v).getLsbD i
      = (old.getLsbD i && !fld.mask.getLsbD i || !decide (i < fld.lo) && v.getLsbD (i - fld.lo)) := by
  simp only [Field.insert, BitVec.getLsbD_or, BitVec.getLsbD_and, BitVec.getLsbD_not, BitVec.getLsbD_shiftLeft, hi,
    decide_true, Bool.true_and]

theorem insert_ssoe_one (old : Half) : Field.ssoe.insert old 1#16 = old ||| 0x0004#16 := by
  apply BitVec.eq_of_getLsbD_eq
  intro i hi
  simp only [Field.getLsbD_insert _ _ _ hi, BitVec.getLsbD_or, Field.mask, Field.lo]
  interval_cases i <;> simp

theorem insert_ssoe_zero (old : Half) : Field.ssoe.insert old 0#16 = old &&& 0xFFFB#16 := by
  rw [Field.insert_ssoe]
  exact BitVec.or_zero

/-- The slave-select line: SSM and ISS under code 0, SSOE under the others (R105). -/
theorem programFields_ss {cfg : CfgRecord} (h : cfg.ss.toNat < 3) (old : Half × Half) :
    programFields ((ssFields cfg.ss).getD []) old
      = (if cfg.ss = 0#8 then Field.iss.insert (Field.ssm.insert old.1 1#16) 1#16 else old.1, newCtrl2 old.2 cfg) := by
  rcases ss_cases _ h with hss | hss | hss <;>
    simp [ssFields, hss, programFields, Field.program, newCtrl2, insert_ssoe_one, insert_ssoe_zero]

/-- The RegFields of a legal record leave the closed form of R134. -/
theorem programFields_record {cfg : CfgRecord} (h : recordLegal cfg = true) (old : Half × Half) :
    programFields (fieldsOfLines cfg 8) old = (newCtrl1 old.1 cfg, newCtrl2 old.2 cfg) := by
  obtain ⟨hmode, hrole, hbaud, hss, horder, hxfer, hsize⟩ := (recordLegal_iff cfg).mp h
  rw [fieldsOfLines_legal h]
  simp only [programFields_cons, programFields_append, programFields_ss hss]
  refine Prod.ext ?_ rfl
  simp only [programFields_nil, Field.program, reduceCtorEq, if_false, newCtrl1, mode_bits _ hmode,
    baud_bits _ hbaud, toHalf_of_lt_two _ hrole, toHalf_of_lt_two _ horder, toHalf_of_lt_two _ hxfer,
    toHalf_of_lt_two _ hsize]
  apply BitVec.eq_of_getLsbD_eq
  intro i hi
  by_cases hsoft : cfg.ss = 0#8
  all_goals
    simp only [hsoft, if_true, if_false, Field.getLsbD_insert _ _ _ hi, BitVec.getLsbD_or, BitVec.getLsbD_and,
      BitVec.getLsbD_shiftLeft, getLsbD_bitHalf, Field.mask, Field.lo, hi, decide_true, Bool.true_and]
    interval_cases i <;> simp

/-! A table that runs again (R135, R136) -/

/-- Every bit is kept or has a fixed value. -/
def FixesBits (f : Half → Half) : Prop := ∃ keep set : Half, ∀ x, f x = x &&& keep ||| set

theorem fixesBits_id : FixesBits id := ⟨BitVec.allOnes 16, 0#16, fun x => by rw [BitVec.or_zero, BitVec.and_allOnes, id]⟩

theorem FixesBits.comp {f g : Half → Half} (hg : FixesBits g) (hf : FixesBits f) : FixesBits (fun x => g (f x)) := by
  obtain ⟨keep, set, hf⟩ := hf
  obtain ⟨keep', set', hg⟩ := hg
  refine ⟨keep &&& keep', set &&& keep' ||| set', fun x => ?_⟩
  show g (f x) = _
  rw [hf, hg, BitVec.and_comm (_ ||| _), BitVec.and_or_distrib_left]
  ac_rfl

/-- What keeps or fixes every bit changes nothing the second time. -/
theorem FixesBits.idempotent {f : Half → Half} (h : FixesBits f) (x : Half) : f (f x) = f x := by
  obtain ⟨keep, set, hf⟩ := h
  rw [hf (f x), hf x]
  apply BitVec.eq_of_getLsbD_eq
  intro i hi
  simp only [BitVec.getLsbD_or, BitVec.getLsbD_and]
  cases x.getLsbD i <;> cases keep.getLsbD i <;> cases set.getLsbD i <;> rfl

theorem fixesBits_newCtrl1 (r : CfgRecord) : FixesBits (fun old => newCtrl1 old r) :=
  ⟨0xF300#16, _, fun old => by simp only [newCtrl1, BitVec.or_assoc]; rfl⟩

theorem fixesBits_newCtrl2 (r : CfgRecord) : FixesBits (fun old => newCtrl2 old r) := by
  unfold newCtrl2
  split
  · exact fixesBits_id
  · split
    · exact ⟨BitVec.allOnes 16, 0x0004#16, fun old => by rw [BitVec.and_allOnes]⟩
    · exact ⟨0xFFFB#16, 0#16, fun old => BitVec.or_zero.symm⟩

/-- The two control registers of channel `n` after a table (R134, R135). -/
def programmed (n : Nat) (records : List CfgRecord) (old : Half × Half) : Half × Half :=
  records.foldl (fun old r => if r.channel.toNat = n then (newCtrl1 old.1 r, newCtrl2 old.2 r) else old) old

theorem programmed_fixesBits (n : Nat) : ∀ records : List CfgRecord, ∃ f g, FixesBits f ∧ FixesBits g
    ∧ ∀ old, programmed n records old = (f old.1, g old.2)
  | [] => ⟨id, id, fixesBits_id, fixesBits_id, fun _ => rfl⟩
  | r :: records => by
    obtain ⟨f, g, hf, hg, heq⟩ := programmed_fixesBits n records
    by_cases hn : r.channel.toNat = n
    · refine ⟨_, _, hf.comp (fixesBits_newCtrl1 r), hg.comp (fixesBits_newCtrl2 r), fun old => ?_⟩
      simp only [programmed, List.foldl, if_pos hn] at heq ⊢
      exact heq _
    · refine ⟨f, g, hf, hg, fun old => ?_⟩
      simp only [programmed, List.foldl, if_neg hn] at heq ⊢
      exact heq _

theorem programmed_idempotent (n : Nat) (records : List CfgRecord) (old : Half × Half) :
    programmed n records (programmed n records old) = programmed n records old := by
  obtain ⟨f, g, hf, hg, heq⟩ := programmed_fixesBits n records
  rw [heq (programmed n records old), heq old, hf.idempotent, hg.idempotent]

theorem getElem?_foldl_programRecord (n : Nat) : ∀ (records : List CfgRecord) (controls : List (Half × Half)),
    (records.foldl programRecord controls)[n]? = controls[n]?.map (programmed n records)
  | [], controls => (Option.map_id' (x := controls[n]?)).symm
  | r :: records, controls => by
    rw [List.foldl, getElem?_foldl_programRecord n records, programRecord, List.getElem?_modify]
    cases controls[n]? with
    | none => rfl
    | some old => by_cases hn : r.channel.toNat = n <;> simp [programmed, hn]

/-- A table leaves control registers that it leaves as they are when it runs again, however its records differ. -/
theorem foldl_programRecord_idempotent (records : List CfgRecord) (controls : List (Half × Half)) :
    records.foldl programRecord (records.foldl programRecord controls) = records.foldl programRecord controls := by
  apply List.ext_getElem?
  intro n
  simp only [getElem?_foldl_programRecord, Option.map_map]
  congr 1
  exact funext (programmed_idempotent n records)

end Sys2Proof.Machine
end

section
/-! SEQ's steps with link agents between (`Leads`): what SEQ sees of the state (`seqView`) no link agent changes, so that a
number of SEQ's steps leads from view to view whatever link agents do between them. O23 is read off it. -/

namespace Sys2Proof.Machine

/-! What SEQ sees (R76, R82) -/

/-- The state as SPI_INIT sees it: its position, the control registers, the tables, and what stays. -/
structure SeqView where
  params : Params
  pins : Vector (Vector Bool 16) 5
  mem : Memory
  controls : List (Half × Half)
  mode : SeqMode
  pc : List Frame

def State.seqView (s : State) : SeqView := ⟨s.params, s.pins, s.mem, s.controls, s.mode, s.pc⟩

/-- SEQ's turn leads from the view to the other. -/
def SeqView.Fires (v w : SeqView) : Prop :=
  ∀ u : State, u.seqView = v → ∃ t, seqStep u = .next t ∧ t.seqView = w ∧ t.turns = u.turns

/-- So many of SEQ's turns lead from the one view to the other. -/
inductive SeqView.Leads : Nat → SeqView → SeqView → Prop
  | nothing (v : SeqView) : Leads 0 v v
  | step {k : Nat} {v w x : SeqView} (h : v.Fires w) (rest : Leads k w x) : Leads (k + 1) v x

theorem SeqView.Fires.leads {v w : SeqView} (h : v.Fires w) : SeqView.Leads 1 v w := .step h (.nothing w)

theorem SeqView.Leads.trans {j k : Nat} {v w x : SeqView} (h : SeqView.Leads j v w) (h' : SeqView.Leads k w x) :
    SeqView.Leads (j + k) v x := by
  induction h with
  | nothing v => rwa [Nat.zero_add]
  | step hfires _ ih =>
    rw [Nat.add_right_comm]
    exact .step hfires (ih h')

theorem SeqView.Leads.cast {j k : Nat} {v w : SeqView} (h : SeqView.Leads j v w) (hjk : j = k) :
    SeqView.Leads k v w := hjk ▸ h

theorem LinkKept.seqView {s t : State} (h : LinkKept s t) : t.seqView = s.seqView := by
  rw [State.seqView, h.params, h.pins, h.mem, h.controls, h.mode, h.pc, State.seqView]

/-- A schedule of SEQ and link agents with the steps SEQ needs, by induction on the schedule. -/
theorem SeqView.Leads.run : ∀ (ts : List Turn) {k : Nat} {v w : SeqView} {s : State} {more : List Turn},
    SeqView.Leads k v w → s.seqView = v → s.turns = ts ++ more → .host ∉ ts → ts.count .seq = k →
    ∃ t : State, Host.Core.run core ts.length s = .next t ∧ t.seqView = w
  | [], k, v, w, s, more, h, hview, hturns, hhost, hcount => by
    obtain rfl : k = 0 := hcount.symm
    cases h
    exact ⟨s, rfl, hview⟩
  | a :: ts, k, v, w, s, more, h, hview, hturns, hhost, hcount => by
    have hturn := State.nextTurn_of_turns (more := ts ++ more) hturns
    have hspent : s.spendTurn.turns = ts ++ more := by rw [State.spendTurn_turns, hturns]; rfl
    have hhost' : .host ∉ ts := fun hmem => hhost (List.mem_cons_of_mem a hmem)
    cases a with
    | host => exact absurd List.mem_cons_self hhost
    | seq =>
      rw [List.count_cons_self] at hcount
      subst hcount
      cases h with
      | step hfires hrest =>
        obtain ⟨u, hstep, hu, huturns⟩ := hfires s.spendTurn hview
        obtain ⟨t, ht, htview⟩ := hrest.run ts hu (huturns.trans hspent) hhost' rfl
        exact ⟨t, (run_succ ((step_of_nextTurn hturn).trans hstep) _).trans ht, htview⟩
    | link c =>
      rw [List.count_cons_of_ne (by simp)] at hcount
      obtain ⟨u, hstep, hmove⟩ := linkStep_linkMove c s.spendTurn
      obtain ⟨t, ht, htview⟩ := h.run ts (hmove.kept.seqView.trans hview) (hmove.kept.turns.trans hspent) hhost' hcount
      exact ⟨t, (run_succ ((step_of_nextTurn hturn).trans hstep) _).trans ht, htview⟩

/-! The lines of SPI_INIT as SEQ sees them (R133) -/

/-- The view with a stack and control registers. -/
def SeqView.at (v : SeqView) (controls : List (Half × Half)) (pc : List Frame) : SeqView :=
  { v with controls := controls, pc := pc }

/-- In the view SEQ runs with `f` on top of its stack (R37, R38). -/
def SeqView.running (v : SeqView) (f : Frame) (rest : List Frame) : Prop := v.mode = .run ∧ v.pc = f :: rest

theorem State.running_of_seqView {u : State} {v : SeqView} {f : Frame} {rest : List Frame} (hview : u.seqView = v)
    (hrun : v.running f rest) : u.running f rest := by
  subst hview
  exact hrun

/-- A line of the operation on top of the stack is SEQ's turn. -/
theorem SeqView.fires_of_exec {v w : SeqView} {f : Frame} {rest : List Frame} (hrun : v.running f rest)
    (h : ∀ u : State, u.seqView = v → ∃ t, exec f.op u = .next t ∧ t.seqView = w ∧ t.turns = u.turns) : v.Fires w := by
  intro u hview
  obtain ⟨hmode, hpc⟩ := State.running_of_seqView hview hrun
  obtain ⟨t, ht, hw⟩ := h u hview
  exact ⟨t, by simp only [seqStep, hmode, hpc, ht], hw⟩

theorem State.controls_set {s : State} {c : Nat} {ch : Channel} {pc : List Frame} :
    State.controls { s with chans := s.chans.set c ch, pc := pc } = s.controls.set c (ch.ctrl1, ch.ctrl2) :=
  List.map_set

/-- The place of a frame of SPI_INIT: its operation and record, and where it stands. -/
def Frame.Resumes (g f : Frame) (position : Nat × Nat × Half) : Prop :=
  g.op = f.op ∧ g.cfg = f.cfg ∧ (g.line, g.sub, g.idx) = position

/-- Where SPI_INIT goes on after a line of a record: the next line, or after line 12 the next record or past the loop. -/
def afterLine (count : Half) (f : Frame) : Nat × Nat × Half :=
  if f.line < 12 then (f.line + 1, 0, f.idx)
  else if f.idx.toNat + 1 < count.toNat then (2, 0, f.idx + 1#16) else (13, 0, f.idx)

theorem State.chan_of_controls {s : State} {c : Nat} {p : Half × Half} (h : s.controls[c]? = some p) :
    ∃ ch, s.chans[c]? = some ch ∧ ch.ctrl1 = p.1 ∧ ch.ctrl2 = p.2 := by
  rw [State.getElem?_controls] at h
  obtain ⟨ch, hch, rfl⟩ := Option.map_eq_some_iff.mp h
  exact ⟨ch, hch, rfl, rfl⟩

section Field

variable {v : SeqView} {f : Frame} {rest : List Frame} {count : Half} {table : Word} {fields : List (Field × Half)}
  {k : Nat} {fld : Field} {val : Half} {old : Half × Half} (hrun : v.running f rest) (hop : f.op = .spiInit count table)
  (hlo : 5 ≤ f.line) (hhi : f.line ≤ 12) (hold : v.controls[f.cfg.channel.toNat]? = some old)
  (hfields : initFields f.line f.cfg = some fields) (hk : fields[k]? = some (fld, val))

include hrun hop hlo hhi hold hfields hk

theorem fires_readHalf (hsub : f.sub = 2 * k) :
    v.Fires (v.at v.controls ({ f with sub := f.sub + 1, tmp := if fld = .ssoe then old.2 else old.1 } :: rest)) := by
  refine SeqView.fires_of_exec hrun fun u hview => ?_
  subst hview
  rw [show u.seqView.controls = u.controls from rfl, State.getElem?_controls, Option.map_eq_some_iff] at hold
  obtain ⟨ch, hch, rfl⟩ := hold
  refine ⟨_, (exec_spiInit_of_fieldLine (s := u) hrun hop hlo hhi).trans
    (initLine_readHalf (s := u) hrun hch hfields hk count hsub), ?_, rfl⟩
  rw [Channel.readValue_field]
  rfl

theorem fires_writeHalf (hsub : f.sub = 2 * k + 1) (htmp : f.tmp = if fld = .ssoe then old.2 else old.1) :
    v.Fires (v.at (v.controls.set f.cfg.channel.toNat (fld.program val old))
      (initAfter count fields.length f :: rest)) := by
  refine SeqView.fires_of_exec hrun fun u hview => ?_
  subst hview
  rw [show u.seqView.controls = u.controls from rfl, State.getElem?_controls, Option.map_eq_some_iff] at hold
  obtain ⟨ch, hch, rfl⟩ := hold
  refine ⟨_, (exec_spiInit_of_fieldLine (s := u) hrun hop hlo hhi).trans
    (initLine_writeHalf (s := u) hrun hch hfields hk count hsub (ch.afterWrite_field fld _)), ?_, rfl⟩
  rw [State.seqView, State.controls_set, htmp]
  by_cases hssoe : fld = .ssoe <;> simp only [hssoe, if_true, if_false, Field.program] <;> rfl

/-- A RegField is the read half and the write half (R9, R82). -/
theorem leads_regField (hsub : f.sub = 2 * k) :
    ∃ g : Frame, SeqView.Leads 2 v
        (v.at (v.controls.set f.cfg.channel.toNat (fld.program val old)) (g :: rest))
      ∧ g.Resumes f (if k + 1 < fields.length then (f.line, 2 * (k + 1), f.idx) else afterLine count f) := by
  have hread := fires_readHalf hrun hop hlo hhi hold hfields hk hsub
  generalize htmp : (if fld = .ssoe then old.2 else old.1) = word at hread
  have hwrite := fires_writeHalf (v := v.at v.controls ({ f with sub := f.sub + 1, tmp := word } :: rest))
    (f := { f with sub := f.sub + 1, tmp := word }) (rest := rest) ⟨hrun.1, rfl⟩ hop hlo hhi hold hfields hk
    (by simp [hsub]) htmp.symm
  exact ⟨_, hread.leads.trans hwrite.leads, initAfter_op _ _ _, initAfter_cfg _ _ _,
    initAfter_position count fields.length k { f with sub := f.sub + 1, tmp := word } (by simp [hsub]) hhi⟩

end Field

section Record

variable {rest : List Frame} {count : Half} {table : Word}

/-- The RegFields of a line that are left, by induction on them. -/
theorem leads_fields : ∀ (left : List (Field × Half)) (p : Field × Half) (done : List (Field × Half)) {v : SeqView}
    {f : Frame} {old : Half × Half}, v.running f rest → f.op = .spiInit count table → 5 ≤ f.line → f.line ≤ 12 →
    v.controls[f.cfg.channel.toNat]? = some old → initFields f.line f.cfg = some (done ++ p :: left) →
    f.sub = 2 * done.length →
    ∃ g : Frame, SeqView.Leads (2 * (p :: left).length) v
        (v.at (v.controls.set f.cfg.channel.toNat (programFields (p :: left) old)) (g :: rest))
      ∧ g.Resumes f (afterLine count f)
  | left, (fld, val), done, v, f, old, hrun, hop, hlo, hhi, hold, hfields, hsub => by
    have hk : (done ++ (fld, val) :: left)[done.length]? = some (fld, val) := by simp
    obtain ⟨g, hfield, hgop, hgcfg, hplace⟩ := leads_regField hrun hop hlo hhi hold hfields hk hsub
    cases left with
    | nil =>
      rw [if_neg (by simp)] at hplace
      exact ⟨g, hfield, hgop, hgcfg, hplace⟩
    | cons q left =>
      rw [if_pos (by simp), Prod.mk.injEq, Prod.mk.injEq] at hplace
      obtain ⟨hgline, hgsub, hgidx⟩ := hplace
      obtain ⟨g', hrest, hg'op, hg'cfg, hplace'⟩ := leads_fields left q (done ++ [(fld, val)])
        (v := v.at (v.controls.set f.cfg.channel.toNat (fld.program val old)) (g :: rest)) (f := g)
        (old := fld.program val old) ⟨hrun.1, rfl⟩ (hgop.trans hop) (hgline ▸ hlo) (hgline ▸ hhi)
        (by rw [hgcfg]; exact List.getElem?_set_self (List.getElem?_eq_some_iff.mp hold).1)
        (by rw [hgline, hgcfg, hfields, List.append_cons]) (by simp [hgsub])
      refine ⟨g', ?_, hg'op.trans hgop, hg'cfg.trans hgcfg, ?_⟩
      · have hall := hfield.trans hrest
        simp only [SeqView.at, hgcfg, List.set_set] at hall
        rw [List.length_cons, Nat.mul_succ, Nat.add_comm, programFields_cons]
        exact hall
      · rw [hplace', afterLine, hgline, hgidx, afterLine]

/-- A line of a legal record (R133). -/
theorem leads_line {v : SeqView} {f : Frame} {old : Half × Half} (hrun : v.running f rest)
    (hop : f.op = .spiInit count table) (hlo : 5 ≤ f.line) (hhi : f.line ≤ 12) (hsub : f.sub = 0)
    (hlegal : recordLegal f.cfg = true) (hold : v.controls[f.cfg.channel.toNat]? = some old) :
    ∃ g : Frame, SeqView.Leads (2 * ((initFields f.line f.cfg).getD []).length) v
        (v.at (v.controls.set f.cfg.channel.toNat (programFields ((initFields f.line f.cfg).getD []) old)) (g :: rest))
      ∧ g.Resumes f (afterLine count f) := by
  obtain ⟨fields, hfields⟩ := initFields_of_legal hlegal f.line
  obtain ⟨p, left, rfl⟩ := List.exists_cons_of_ne_nil (initFields_fit hfields).1
  rw [hfields]
  exact leads_fields left p [] hrun hop hlo hhi hold hfields hsub

/-- The last `n + 1` of the lines 5 to 12, by induction on their number (R133). -/
theorem leads_lines (n : Nat) : ∀ {v : SeqView} {f : Frame} {old : Half × Half}, n ≤ 7 → v.running f rest →
    f.op = .spiInit count table → f.line = 12 - n → f.sub = 0 → recordLegal f.cfg = true →
    v.controls[f.cfg.channel.toNat]? = some old →
    ∃ g : Frame, SeqView.Leads (2 * (fieldsOfLines f.cfg (n + 1)).length) v
        (v.at (v.controls.set f.cfg.channel.toNat (programFields (fieldsOfLines f.cfg (n + 1)) old)) (g :: rest))
      ∧ g.Resumes f (if f.idx.toNat + 1 < count.toNat then (2, 0, f.idx + 1#16) else (13, 0, f.idx)) := by
  induction n with
  | zero =>
    intro v f old hn hrun hop hl hsub hlegal hold
    have hline := leads_line hrun hop (by omega) (by omega) hsub hlegal hold
    rw [afterLine, if_neg (by omega), hl] at hline
    rw [fieldsOfLines, fieldsOfLines, List.append_nil]
    exact hline
  | succ n ih =>
    intro v f old hn hrun hop hl hsub hlegal hold
    obtain ⟨g, hline, hgop, hgcfg, hplace⟩ := leads_line hrun hop (by omega) (by omega) hsub hlegal hold
    rw [afterLine, if_pos (by omega), Prod.mk.injEq, Prod.mk.injEq] at hplace
    obtain ⟨hgline, hgsub, hgidx⟩ := hplace
    obtain ⟨g', hrest, hg'op, hg'cfg, hplace'⟩ := ih (f := g) (by omega)
      (v := v.at (v.controls.set f.cfg.channel.toNat (programFields ((initFields f.line f.cfg).getD []) old)) (g :: rest))
      (old := programFields ((initFields f.line f.cfg).getD []) old) ⟨hrun.1, rfl⟩ (hgop.trans hop) (by omega) hgsub
      (by rwa [hgcfg])
      (by rw [hgcfg]; exact List.getElem?_set_self (List.getElem?_eq_some_iff.mp hold).1)
    refine ⟨g', ?_, hg'op.trans hgop, hg'cfg.trans hgcfg, by rw [hplace', hgidx]⟩
    have hall := hline.trans hrest
    simp only [SeqView.at, hgcfg, List.set_set, hl] at hall
    rw [fieldsOfLines, programFields_append, List.length_append, Nat.mul_add]
    exact hall

/-- The lines 5 to 12 of a legal record leave its channel with the closed form (R134). -/
theorem leads_record {v : SeqView} {f : Frame} {old : Half × Half} (hrun : v.running f rest)
    (hop : f.op = .spiInit count table) (hl : f.line = 5) (hsub : f.sub = 0) (hlegal : recordLegal f.cfg = true)
    (hold : v.controls[f.cfg.channel.toNat]? = some old) :
    ∃ g : Frame, SeqView.Leads (initSteps f.cfg) v (v.at (programRecord v.controls f.cfg) (g :: rest))
      ∧ g.Resumes f (if f.idx.toNat + 1 < count.toNat then (2, 0, f.idx + 1#16) else (13, 0, f.idx)) := by
  have hprogram : programRecord v.controls f.cfg
      = v.controls.set f.cfg.channel.toNat (newCtrl1 old.1 f.cfg, newCtrl2 old.2 f.cfg) := by
    rw [programRecord, List.modify_eq_set_getElem?, hold]
    rfl
  rw [hprogram, ← programFields_record hlegal, ← fieldsOfLines_length hlegal]
  exact leads_lines 7 (Nat.le_refl 7) hrun hop hl hsub hlegal hold

end Record

/-- Settles O23: the lines of a record lead, whatever link agents do between them, to the view with the closed form. -/
theorem initRecordClosedForm : Obligations.InitRecordClosedForm := by
  intro s f rest count table ts more hrun hop hl hsub hlegal hchan hturns hhost hcount
  obtain ⟨ch, hch⟩ := Option.isSome_iff_exists.mp hchan
  obtain ⟨g, hleads, hgop, -, hplace⟩ := leads_record (v := s.seqView) hrun hop hl hsub hlegal
    (old := (ch.ctrl1, ch.ctrl2)) ((s.getElem?_controls _).trans (by rw [hch]; rfl))
  obtain ⟨t, ht, hview⟩ := hleads.run ts rfl hturns hhost hcount
  simp only [State.seqView, SeqView.at, SeqView.mk.injEq] at hview
  obtain ⟨-, hpins, hmem, hcontrols, hmode, hpc⟩ := hview
  obtain ⟨hsub', hposition⟩ : g.sub = 0
      ∧ (g.line, g.idx) = if f.idx.toNat + 1 < count.toNat then (2, f.idx + 1#16) else (13, f.idx) := by
    split_ifs at hplace ⊢ <;>
    · simp only [Prod.mk.injEq] at hplace ⊢
      obtain ⟨hline, hsub', hidx⟩ := hplace
      exact ⟨hsub', hline, hidx⟩
  refine ⟨t, g, ht, hmode.trans hrun.1, hpc, hgop, hsub', hposition, hpins, hmem, ?_, fun c cc hcc => ?_⟩
  · rw [← State.controls_length, hcontrols, programRecord, List.length_modify, State.controls_length]
  · have hc : t.controls[c]? = some (if f.cfg.channel.toNat = c then (newCtrl1 cc.ctrl1 f.cfg, newCtrl2 cc.ctrl2 f.cfg)
        else (cc.ctrl1, cc.ctrl2)) := by
      rw [hcontrols, programRecord, List.getElem?_modify, State.getElem?_controls, hcc]
      rfl
    obtain ⟨ch', hch', h1, h2⟩ := State.chan_of_controls hc
    refine ⟨ch', hch', ?_⟩
    by_cases hown : f.cfg.channel.toNat = c
    · rw [h1, h2, if_pos hown, if_pos hown.symm, if_pos hown.symm]
      exact ⟨rfl, rfl⟩
    · rw [h1, h2, if_neg hown, if_neg (Ne.symm hown), if_neg (Ne.symm hown)]
      exact ⟨rfl, rfl⟩

end Sys2Proof.Machine
end

section
/-! O24: SPI_INIT over a whole table, record by record. -/

namespace Sys2Proof.Machine

/-- A line that moves the top frame and nothing else. -/
theorem SeqView.fires_of_move {v : SeqView} {f g : Frame} {rest : List Frame} (hrun : v.running f rest)
    (h : ∀ u : State, u.seqView = v → exec f.op u = .next { u with pc := g :: rest }) :
    v.Fires (v.at v.controls (g :: rest)) := by
  refine SeqView.fires_of_exec hrun fun u hview => ⟨_, h u hview, ?_, rfl⟩
  subst hview
  rfl

section Table

variable {rest : List Frame} {count : Half} {table : Word} {v : SeqView} {f : Frame} (hrun : v.running f rest)
  (hop : f.op = .spiInit count table)

include hrun hop

theorem fires_enterLoop (hl : f.line = 1) :
    v.Fires (v.at v.controls ({ f with line := if count = 0#16 then 13 else 2, sub := 0, idx := 0#16 } :: rest)) :=
  SeqView.fires_of_move hrun fun u hview =>
    (initTakesEachRecord u f rest count table (State.running_of_seqView hview hrun) hop).1 hl

theorem fires_takeRecord {r : CfgRecord} (hl : f.line = 2) (htable : table ≠ 0#32)
    (hgiven : (v.mem.records table)[f.idx.toNat]? = some r) :
    v.Fires (v.at v.controls ({ f with line := 3, sub := 0, cfg := r } :: rest)) :=
  SeqView.fires_of_move hrun fun u hview => by
    subst hview
    exact (initTakesEachRecord u f rest count table hrun hop).2.1 r hl htable hgiven

theorem fires_checkChannel (hl : f.line = 3) (hch : f.cfg.channel.toNat < v.params.nCh) :
    v.Fires (v.at v.controls (f.goto 4 :: rest)) :=
  SeqView.fires_of_move hrun fun u hview => by
    subst hview
    have hurun : u.running f rest := hrun
    have hok : f.cfg.channel.toNat < u.params.nCh := hch
    have hcontract : contract u f.op f.line f.cfg = some (true, 1#8, f.cfg.channel.toWord) := by
      simp [contract, hop, hl, hok]
    rw [exec_of_contract hurun hcontract, if_pos rfl, State.setTop_of_running hurun, Frame.next_eq_goto hl]

theorem fires_enterFields (hl : f.line = 4) : v.Fires (v.at v.controls (f.goto 5 :: rest)) :=
  SeqView.fires_of_move hrun fun u hview =>
    (initTakesEachRecord u f rest count table (State.running_of_seqView hview hrun) hop).2.2.1 hl

/-- The lines 2 to 4 and the fields of the record at the loop index (R133). -/
theorem leads_tableRecord {r : CfgRecord} (hl : f.line = 2) (htable : table ≠ 0#32)
    (hgiven : (v.mem.records table)[f.idx.toNat]? = some r) (hlegal : recordLegal r = true)
    (hch : r.channel.toNat < v.params.nCh ∧ r.channel.toNat < v.controls.length) :
    ∃ g : Frame, SeqView.Leads (3 + initSteps r) v (v.at (programRecord v.controls r) (g :: rest)) ∧ g.op = f.op
      ∧ (g.line, g.sub, g.idx) = if f.idx.toNat + 1 < count.toNat then (2, 0, f.idx + 1#16) else (13, 0, f.idx) := by
  have htake := fires_takeRecord hrun hop hl htable hgiven
  have hcheck := fires_checkChannel (v := v.at v.controls ({ f with line := 3, sub := 0, cfg := r } :: rest))
    (f := { f with line := 3, sub := 0, cfg := r }) (rest := rest) ⟨hrun.1, rfl⟩ hop rfl hch.1
  have henter := fires_enterFields (v := v.at v.controls ({ f with line := 4, sub := 0, cfg := r } :: rest))
    (f := { f with line := 4, sub := 0, cfg := r }) (rest := rest) ⟨hrun.1, rfl⟩ hop rfl
  obtain ⟨g, hfields, hgop, -, hplace⟩ := leads_record
    (v := v.at v.controls ({ f with line := 5, sub := 0, cfg := r } :: rest))
    (f := { f with line := 5, sub := 0, cfg := r }) (rest := rest) ⟨hrun.1, rfl⟩ hop rfl rfl hlegal
    (List.getElem?_eq_getElem hch.2)
  have hsteps : 1 + (1 + (1 + initSteps r)) = 3 + initSteps r := by omega
  exact ⟨g, (htake.leads.trans (hcheck.leads.trans (henter.leads.trans hfields))).cast hsteps, hgop, hplace⟩

end Table
/-- The loop over the records that are left, by induction on them (R133, R136). -/
theorem leads_tableLoop {rest : List Frame} {count : Half} {table : Word} (htable : table ≠ 0#32) :
    ∀ (left : List CfgRecord) (r : CfgRecord) {v : SeqView} {f : Frame}, v.running f rest → f.op = .spiInit count table →
    f.line = 2 → f.idx.toNat + (r :: left).length = count.toNat →
    (∀ k, k < (r :: left).length → (v.mem.records table)[f.idx.toNat + k]? = (r :: left)[k]?) →
    (r :: left).all recordLegal = true →
    (∀ r' ∈ r :: left, r'.channel.toNat < v.params.nCh ∧ r'.channel.toNat < v.controls.length) →
    ∃ g : Frame, SeqView.Leads ((r :: left).map (fun r => 3 + initSteps r)).sum v
        (v.at ((r :: left).foldl programRecord v.controls) (g :: rest)) ∧ g.atLine (.spiInit count table) 13
  | left, r, v, f, hrun, hop, hl, hleft, hgiven, hlegal, hch => by
    have hfirst : (v.mem.records table)[f.idx.toNat]? = some r := hgiven 0 (by simp)
    rw [List.all_cons, Bool.and_eq_true] at hlegal
    obtain ⟨g, hrecord, hgop, hplace⟩ := leads_tableRecord hrun hop hl htable hfirst hlegal.1 (hch r (by simp))
    cases left with
    | nil =>
      rw [if_neg (by simp at hleft; omega)] at hplace
      refine ⟨g, ?_, hgop.trans hop, congrArg Prod.fst hplace⟩
      simpa using hrecord
    | cons r' left =>
      simp only [List.length_cons] at hleft
      have hagain : f.idx.toNat + 1 < count.toNat := by omega
      rw [if_pos hagain, Prod.mk.injEq, Prod.mk.injEq] at hplace
      obtain ⟨hgline, -, hgidx⟩ := hplace
      have hidx : g.idx.toNat = f.idx.toNat + 1 := by rw [hgidx, toNat_next_idx hagain]
      obtain ⟨g', hloop, hg'⟩ := leads_tableLoop htable left r' (v := v.at (programRecord v.controls r) (g :: rest))
        (f := g) ⟨hrun.1, rfl⟩ (hgop.trans hop) hgline (by simp only [List.length_cons]; omega)
        (fun k hk => by
          rw [hidx, Nat.add_assoc, Nat.add_comm 1]
          exact hgiven (k + 1) (by simpa using hk))
        hlegal.2
        (fun x hx => by
          have hx' := hch x (List.mem_cons_of_mem r hx)
          rw [← List.length_modify (f := fun old => (newCtrl1 old.1 r, newCtrl2 old.2 r)) (i := r.channel.toNat)] at hx'
          exact hx')
      exact ⟨g', hrecord.trans hloop, hg'⟩

/-- The view after SPI_INIT has returned, with the control registers given (R39). -/
def SeqView.returned (v : SeqView) (controls : List (Half × Half)) (rest : List Frame) : SeqView :=
  { v with
    controls := controls
    pc := match rest with
      | [] => []
      | g :: gs => g.next :: gs
    mode := match rest with
      | [] => .idle
      | _ :: _ => v.mode }

theorem fires_initReturn {rest : List Frame} {count : Half} {table : Word} {v : SeqView} {f : Frame}
    (hrun : v.running f rest) (hentry : f.atLine (.spiInit count table) 13) : v.Fires (v.returned v.controls rest) := by
  obtain ⟨hop, hl⟩ := hentry
  refine SeqView.fires_of_exec hrun fun u hview => ⟨u.ret, ?_, ?_, State.ret_turns u⟩
  · have hline : exec f.op u = execSpiInit count table u := by rw [hop]; rfl
    rw [hline, execSpiInit, operation_of_running (State.running_of_seqView hview hrun)]
    simp only [hl]
  · rw [State.ret_eq_returned (State.running_of_seqView hview hrun)]
    subst hview
    rfl

/-- SPI_INIT over a table, from its line 1 to its return (R133 to R136). -/
theorem State.initRun.leads {s : State} {f : Frame} {rest : List Frame} {count : Half} {table : Word}
    {records : List CfgRecord} {ts more : List Turn} (h : s.initRun f rest count table records ts more) :
    SeqView.Leads (initTableSteps records) s.seqView
      (s.seqView.returned (records.foldl programRecord s.controls) rest) := by
  obtain ⟨hrun, ⟨hop, hl⟩, hlen, hgiven, hnull, hlegal, hch, -, -, -⟩ := h
  have hbegin := fires_enterLoop (v := s.seqView) hrun hop hl
  cases records with
  | nil =>
    have hzero : count = 0#16 := BitVec.eq_of_toNat_eq hlen.symm
    rw [if_pos hzero] at hbegin
    have hreturn := fires_initReturn (v := s.seqView.at s.controls ({ f with line := 13, sub := 0, idx := 0#16 } :: rest))
      (f := { f with line := 13, sub := 0, idx := 0#16 }) (rest := rest) ⟨hrun.1, rfl⟩ ⟨hop, rfl⟩
    exact hbegin.leads.trans hreturn.leads
  | cons r left =>
    have hne : count ≠ 0#16 := by rintro rfl; simp at hlen
    rw [if_neg hne] at hbegin
    obtain ⟨g, hloop, hg⟩ := leads_tableLoop (hnull.resolve_right hne) left r
      (v := s.seqView.at s.controls ({ f with line := 2, sub := 0, idx := 0#16 } :: rest))
      (f := { f with line := 2, sub := 0, idx := 0#16 }) (rest := rest) ⟨hrun.1, rfl⟩ hop rfl
      ((Nat.zero_add _).trans hlen)
      (fun k hk => (congrArg (fun j => (s.mem.records table)[j]?) (Nat.zero_add k)).trans (hgiven k (hlen ▸ hk)))
      hlegal (fun x hx => ⟨(hch x hx).1, by rw [← s.controls_length] at hch; exact (hch x hx).2⟩)
    have hreturn := fires_initReturn
      (v := s.seqView.at ((r :: left).foldl programRecord s.controls) (g :: rest)) (f := g) (rest := rest)
      ⟨hrun.1, rfl⟩ hg
    have hsteps : 1 + (((r :: left).map (fun r => 3 + initSteps r)).sum + 1) = initTableSteps (r :: left) := by
      rw [initTableSteps]
      omega
    exact (hbegin.leads.trans (hloop.trans hreturn.leads)).cast hsteps

/-- An SPI_INIT over a table, run: it returns with the control registers as the records program them. -/
theorem State.initRun.run {s : State} {f : Frame} {rest : List Frame} {count : Half} {table : Word}
    {records : List CfgRecord} {ts more : List Turn} (h : s.initRun f rest count table records ts more) :
    ∃ t : State, Host.Core.run core ts.length s = .next t ∧ t.returnedTo rest
      ∧ t.controls = records.foldl programRecord s.controls := by
  obtain ⟨t, ht, hview⟩ := h.leads.run ts rfl h.schedule h.noHost h.steps
  simp only [State.seqView, SeqView.returned, SeqView.mk.injEq] at hview
  obtain ⟨-, -, -, hcontrols, hmode, hpc⟩ := hview
  refine ⟨t, ht, ?_, hcontrols⟩
  cases rest with
  | nil => exact ⟨hmode, hpc⟩
  | cons g gs => exact ⟨hmode.trans h.running.1, hpc⟩

/-- Settles O24: both runs program the table, and a table that is programmed again changes nothing. -/
theorem initTableIdempotent : Obligations.InitTableIdempotent := by
  intro s u f g rest rest' count table records ts us more more' hs hu
  obtain ⟨t, ht, hreturned, hcontrols⟩ := hs.run
  obtain ⟨v, hv, hreturned', hcontrols'⟩ := hu.run
  refine ⟨t, v, ht, hreturned, hcontrols, hv, hreturned', fun hsame => ?_⟩
  rw [hcontrols', hsame, hcontrols, foldl_programRecord_idempotent]

end Sys2Proof.Machine
end

section
/-! O38 to O42: the lines of the chip-select and the accelerometer operations, and what a step of one of them (`AccEffect`)
leaves unchanged. -/

namespace Sys2Proof.Machine

/-! The parts of a line -/

/-- What a device hears of a pin driven: low on its own line, it waits for a header (R199). -/
theorem Device.hearPin_eq (d : Device) (port pin : Byte) (level : Bool) : d.hearPin port pin level =
    if level = false ∧ d.port = port ∧ d.pin = pin then { d with slave := { d.slave with phase := .header } } else d :=
  if_congr (by tauto) rfl rfl

/-- A cell of HDR there is, written (R40). -/
theorem State.setHdr_of_lt (s : State) {i : Nat} (hi : i < 2) (v : Half) :
    s.setHdr i v = { s with hdr := s.hdr.set i v } := by
  simp [State.setHdr, Vector.setIfInBounds, Vector.set, Array.setIfInBounds, hi]

section Line

variable {s : State} {f : Frame} {rest : List Frame} (hrun : s.running f rest)

include hrun

/-- A line of the call graph puts the callee's frame above its caller's, which stays where it stands (R117, R160). -/
theorem exec_call {i : Instr} (h : calls s.params f i = true) :
    exec f.op s = .next { s with pc := Frame.start i :: f :: rest } := by
  rw [exec_of_calls hrun h, State.call, hrun.2]

/-- A line that writes a cell of HDR moves on to the next (R165, R171). -/
theorem State.setTop_setHdr {i n : Nat} (hi : i < 2) (hl : f.line = n) (v : Half) :
    (s.setHdr i v).setTop f.next
      = { s with hdr := s.hdr.set i v, pc := { f with line := n + 1, sub := 0 } :: rest } := by
  rw [State.setTop_of_running (s := s.setHdr i v) hrun, s.setHdr_of_lt hi, Frame.next_of_line hl]

/-- A line with an assertion, its condition as a proposition (R211). -/
theorem exec_of_assertion {p : Prop} [Decidable p] {code : Byte} {info : Word} {n : Nat} (hl : f.line = n)
    (h : contract s f.op n f.cfg = some (decide p, code, info)) :
    exec f.op s = if p then .next { s with pc := { f with line := n + 1, sub := 0 } :: rest }
      else .next (s.faulted code info) := by
  rw [exec_of_contract hrun (hl ▸ h), State.setTop_of_running hrun, Frame.next_of_line hl]
  simp only [decide_eq_true_eq]

end Line

/-! The lines -/

/-- Settles O38: the two assertions, the pin driven, the return. -/
theorem chipSelectDrivesPin : Obligations.ChipSelectDrivesPin := by
  intro s f rest port pin level hrun hop
  refine ⟨fun hl => ?_, fun hl => ?_, fun hl => ?_, fun hl => ⟨s.ret, ?_, State.ret_returnedTo hrun⟩⟩
  · exact exec_of_assertion hrun hl (by cases level <;> rw [hop] <;> rfl)
  · exact exec_of_assertion hrun hl (by cases level <;> rw [hop] <;> rfl)
  · refine ⟨(s.pinWrite port pin level).setTop f.next, ?_, rfl, ?_, rfl,
      fun hport hpin => s.pin_pinWrite_same hport hpin level, fun p n h => s.pin_pinWrite_other level h, by simp,
      fun k d hd => ?_⟩
    · rw [exec_chipSelect hrun hop]
      simp only [chipSelect, hl]
    · rw [State.setTop_of_running (s := s.pinWrite port pin level) hrun, Frame.next_of_line hl]
    · simp [hd, Device.hearPin_eq]
  · rw [exec_chipSelect hrun hop]
    simp only [chipSelect, hl]

/-- Settles O39, line by line. -/
theorem accWriteLines : Obligations.AccWriteLines := by
  intro s f rest ch port pin addr value hrun hop
  refine ⟨fun hl haddr => ?_, fun hl => ?_, fun hl => exec_call hrun ?_, fun hl => exec_call hrun ?_,
    fun hl => exec_call hrun ?_, fun hl => ⟨s.ret, exec_accWrite_return hrun hop hl, State.ret_returnedTo hrun⟩⟩
  · rw [exec_accWrite_header hrun hop hl haddr, State.setTop_setHdr hrun (by decide) hl]
    rfl
  · rw [exec_accWrite_value hrun hop hl, State.setTop_setHdr hrun (by decide) hl]
    rfl
  all_goals simp [calls, hop, hl]

/-- Settles O40, line by line. -/
theorem accInitLines : Obligations.AccInitLines := by
  intro s f rest ch port pin hrun hop
  refine ⟨fun hl => exec_call hrun ?_, fun hl => exec_call hrun ?_, fun hl => exec_call hrun ?_,
    fun hl => ⟨(s.setInit ⟨ch, port, pin⟩).setTop f.next, exec_accInit_mark hrun hop hl, ?_, s.accState_setInit _⟩,
    fun hl => ⟨s.ret, exec_accInit_return hrun hop hl, State.ret_returnedTo hrun⟩⟩
  case refine_4 =>
    rw [State.setTop_of_running (s := s.setInit ⟨ch, port, pin⟩) hrun, Frame.next_of_line hl]
    rfl
  all_goals simp [calls, hop, hl]

/-- Settles O41, line by line. -/
theorem accReadLines : Obligations.AccReadLines := by
  intro s f rest ch port pin addr count buf hrun hop
  refine ⟨fun hl haddr => ?_, fun hl => exec_call hrun ?_, fun hl => exec_call hrun ?_, fun hl => exec_call hrun ?_,
    fun hl => exec_call hrun ?_, fun hl => ⟨s.ret, exec_accRead_return hrun hop hl, State.ret_returnedTo hrun⟩⟩
  · rw [exec_accRead_header hrun hop hl haddr, State.setTop_setHdr hrun (by decide) hl]
    rfl
  all_goals simp [calls, hop, hl]

/-! What a step leaves unchanged (R160, R162 to R171) -/

/-- What a step of a chip-select or accelerometer operation `i` makes of the state: the position moves, its pin is driven,
a cell of HDR is written, its session is marked, or a fault is taken (R162, R163, R165, R168, R171, R222). -/
inductive AccEffect (s : State) (i : Instr) : State → Prop
  | position (mode : SeqMode) (pc : List Frame) : AccEffect s i { s with mode := mode, pc := pc }
  | raise (x : FaultCause) (info : Word) : AccEffect s i (s.raise x info)
  | pin {port pin : Byte} {level : Bool} (hi : i = if level then .csDeassert port pin else .csAssert port pin)
      (g : Frame) : AccEffect s i ((s.pinWrite port pin level).setTop g)
  | writeHdr {ch port pin addr value : Byte} (hi : i = .accWrite ch port pin addr value) (k : Nat) (v : Half) (g : Frame) :
      AccEffect s i ((s.setHdr k v).setTop g)
  | readHdr {ch port pin addr : Byte} {count : Half} {buf : Word} (hi : i = .accRead ch port pin addr count buf) (v : Half)
      (g : Frame) : AccEffect s i ((s.setHdr 0 v).setTop g)
  | session {ch port pin : Byte} (hi : i = .accInit ch port pin) (g : Frame) :
      AccEffect s i ((s.setInit ⟨ch, port, pin⟩).setTop g)

theorem AccEffect.of_ret (s : State) (i : Instr) : AccEffect s i s.ret := by
  unfold State.ret
  split
  · exact .position s.mode _
  · exact .position .idle _

/-- A step of an operation has an effect of its lines, or one that acceptance, the refusal at the port or FAULT has. -/
theorem AccEffect.of_operation {i : Instr} {line : Frame → State → Result} {s t : State}
    (hline : ∀ f, line f s = .next t → AccEffect s i t) (h : operation i line s = .next t) : AccEffect s i t := by
  rcases operation_next h with ⟨-, -, rfl⟩ | ⟨-, -, rfl⟩ | ⟨-, rfl⟩ | ⟨f, -, -, h⟩
  · exact .position .run _
  · exact .raise _ _
  · exact .position t.mode t.pc
  · exact hline f h

theorem AccEffect.of_assertLine {i : Instr} {cond : Bool} {x : FaultCause} {info : Word} {f : Frame} {s t : State}
    (h : assertLine cond x info f s = .next t) : AccEffect s i t := by
  rcases assertLine_next h with ⟨-, rfl⟩ | ⟨-, rfl⟩
  · exact .position s.mode _
  · exact .raise _ _

theorem AccEffect.of_chipSelect {s t : State} {i : Instr} {port pin : Byte} {level : Bool} {f : Frame}
    (hi : i = if level then .csDeassert port pin else .csAssert port pin) (h : chipSelect level port pin f s = .next t) :
    AccEffect s i t := by
  rcases chipSelect_next h with ⟨-, h⟩ | ⟨-, h⟩ | ⟨-, rfl⟩ | ⟨-, rfl⟩
  · exact .of_assertLine h
  · exact .of_assertLine h
  · exact .pin hi _
  · exact .of_ret s i

section Effects

variable {s t : State} {ch port pin addr value : Byte} {count : Half} {buf : Word}

theorem accEffect_accInit (h : execAccInit ch port pin s = .next t) : AccEffect s (.accInit ch port pin) t := by
  refine .of_operation (fun f h => ?_) h
  split at h
  case h_1 | h_2 | h_3 => cases h; exact .position s.mode _
  case h_4 => cases h; exact .session rfl _
  case h_5 => cases h; exact .of_ret s _
  case h_6 => cases h

theorem accEffect_accWrite (h : execAccWrite ch port pin addr value s = .next t) :
    AccEffect s (.accWrite ch port pin addr value) t := by
  refine .of_operation (fun f h => ?_) h
  split at h
  case h_1 =>
    obtain ⟨-, rfl⟩ := headerLine_next h
    exact .writeHdr rfl _ _ _
  case h_2 => cases h; exact .writeHdr rfl _ _ _
  case h_3 | h_4 | h_5 => cases h; exact .position s.mode _
  case h_6 => cases h; exact .of_ret s _
  case h_7 => cases h

theorem accEffect_accRead (h : execAccRead ch port pin addr count buf s = .next t) :
    AccEffect s (.accRead ch port pin addr count buf) t := by
  refine .of_operation (fun f h => ?_) h
  split at h
  case h_1 =>
    obtain ⟨-, rfl⟩ := headerLine_next h
    exact .readHdr rfl _ _
  case h_2 | h_3 | h_4 | h_5 => cases h; exact .position s.mode _
  case h_6 => cases h; exact .of_ret s _
  case h_7 => cases h

theorem accEffect_of_exec {i : Instr} (hi : i ∈ [.csAssert port pin, .csDeassert port pin, .accInit ch port pin,
    .accWrite ch port pin addr value, .accRead ch port pin addr count buf]) (h : exec i s = .next t) :
    AccEffect s i t := by
  simp only [List.mem_cons, List.not_mem_nil, or_false] at hi
  rcases hi with rfl | rfl | rfl | rfl | rfl
  · exact .of_operation (fun f => .of_chipSelect (level := false) rfl) h
  · exact .of_operation (fun f => .of_chipSelect (level := true) rfl) h
  · exact accEffect_accInit h
  · exact accEffect_accWrite h
  · exact accEffect_accRead h

end Effects

/-- Settles O42, effect by effect. -/
theorem accAndChipSelectFrame : Obligations.AccAndChipSelectFrame := by
  intro s t i ch port pin addr value count buf hi h
  cases accEffect_of_exec hi h with
  | position mode pc =>
    exact ⟨⟨rfl, rfl, rfl, rfl, rfl⟩, rfl, rfl, rfl, rfl, rfl, .inl ⟨rfl, rfl, rfl⟩, fun _ => ⟨rfl, rfl, fun _ _ _ => rfl⟩,
      fun _ _ => ⟨rfl, rfl, rfl⟩, fun _ => ⟨rfl, fun _ _ => rfl⟩, fun _ => rfl, fun _ => ⟨rfl, rfl⟩⟩
  | raise x info =>
    exact ⟨⟨rfl, rfl, rfl, rfl, rfl⟩, rfl, rfl, rfl, rfl, rfl, .inr ⟨x.code, info, rfl⟩,
      fun _ => ⟨rfl, rfl, fun _ _ _ => rfl⟩, fun _ _ => ⟨rfl, rfl, rfl⟩, fun _ => ⟨rfl, fun _ _ => rfl⟩, fun _ => rfl,
      fun _ => ⟨rfl, rfl⟩⟩
  | @pin port' pin' level hlevel g =>
    have hown : (i = .csAssert port pin ∨ i = .csDeassert port pin) ∧ port' = port ∧ pin' = pin := by
      cases level <;> subst hlevel <;> simpa [eq_comm] using hi
    obtain ⟨hselect, rfl, rfl⟩ := hown
    exact ⟨⟨rfl, rfl, rfl, rfl, rfl⟩, rfl, rfl, rfl, rfl, rfl, .inl ⟨rfl, rfl, rfl⟩,
      fun _ => ⟨rfl, rfl, fun p n h => s.pin_pinWrite_other level h⟩,
      fun hlow hhigh => absurd hselect (not_or.mpr ⟨hlow, hhigh⟩),
      fun _ => ⟨rfl, fun _ _ => rfl⟩, fun _ => rfl, fun _ => ⟨rfl, rfl⟩⟩
  | writeHdr hwrite k v g =>
    subst hwrite
    exact ⟨⟨rfl, rfl, rfl, rfl, rfl⟩, rfl, rfl, rfl, rfl, rfl, .inl ⟨rfl, rfl, rfl⟩, by simp, fun _ _ => ⟨rfl, rfl, rfl⟩,
      by simp, fun _ => rfl, by simp⟩
  | readHdr hread v g =>
    subst hread
    exact ⟨⟨rfl, rfl, rfl, rfl, rfl⟩, rfl, rfl, rfl, rfl, rfl, .inl ⟨rfl, rfl, rfl⟩, by simp, fun _ _ => ⟨rfl, rfl, rfl⟩,
      by simp, fun _ => rfl, fun _ => ⟨rfl, by simp⟩⟩
  | session hinit g =>
    subst hinit
    refine ⟨⟨rfl, rfl, rfl, rfl, rfl⟩, rfl, rfl, rfl, rfl, rfl, .inl ⟨rfl, rfl, rfl⟩, by simp, fun _ _ => ⟨rfl, rfl, rfl⟩,
      ?_, by simp, by simp⟩
    rintro ⟨⟩
    exact ⟨rfl, fun x hx => (s.accState_setInit _ x).trans (if_neg hx)⟩

end Sys2Proof.Machine
end

section
/-! O46, O47, O50, O51: the two steps of a link agent, what a wire header leaves unchanged, and what a data frame makes
of a reference slave. -/

namespace Sys2Proof.Machine

/-! Where the link agent has a step (R191 to R193) -/

theorem Channel.linkOn_of_duplexMaster {ch : Channel} (hen : ch.enable = true) (hrole : ch.role = true)
    (hrx : ch.rxonly = false) : ch.linkOn = true := by
  simp [Channel.linkOn, hen, hrole, hrx]

/-- Without an enabled step, and with nothing that a supplied relation may do, the turn changes nothing (R198, R206). -/
theorem linkStep_idle {s : State} {c : Nat} {ch : Channel} (hch : s.chans[c]? = some ch)
    (hstart : ch.startEnabled = false) (hcomplete : ch.completeEnabled = false)
    (hother : ch.linkOpen = false ∨ s.params.linkOther = .refuse) : linkStep c s = .next s := by
  have heffect : s.linkOtherEffect c ch = none := by
    rcases hother with hclosed | hrefuse
    · cases he : s.linkOtherEffect c ch with
      | none => rfl
      | some e => simp [(linkOtherEffect_some he).1] at hclosed
    · exact linkOtherEffect_refuse hrefuse c ch
  simp [linkStep, hch, hstart, hcomplete, heffect]

/-- Settles O46: LINK_START where it is enabled, and the three ways in which the link agent has no step. -/
theorem linkStartStep : Obligations.LinkStartStep := by
  intro s c ch hch
  refine ⟨fun hen hrole hrx htxe hshift => ?_, fun hoff => ?_, fun htxe hshift hrole hrx => ?_⟩
  · refine linkStep_start hch ?_
    simp [Channel.startEnabled, Channel.linkOn_of_duplexMaster hen hrole hrx, htxe, hshift]
  · have hlink : ch.linkOn = false := by
      rcases hoff with hdis | ⟨-, hslave | hrxonly⟩ <;> simp [Channel.linkOn, *]
    refine linkStep_idle hch (by simp [Channel.startEnabled, hlink]) (by simp [Channel.completeEnabled, hlink]) ?_
    exact hoff.imp (fun hdis => by simp [Channel.linkOpen, hdis]) And.left
  · exact linkStep_idle hch (by simp [Channel.startEnabled, htxe]) (by simp [Channel.completeEnabled, hshift])
      (.inl (by simp [Channel.linkOpen, hrole, hrx]))

/-! The channel of a completed frame (R193 to R195) -/

/-- Delivery and overrun are told apart by RXNE, and BSY falls unless TXBUF holds a word (R193, R194). -/
theorem Channel.completed_eq (ch : Channel) (rx : Half) : ch.completed rx =
    { ch with
      rxbuf := if ch.rxne then ch.rxbuf else rx
      rxne := true
      ovr := if ch.rxne then true else ch.ovr
      shiftActive := false
      bsy := if ch.txe then false else ch.bsy } := by
  cases hrxne : ch.rxne <;> cases htxe : ch.txe <;> simp [Channel.completed, hrxne, htxe]

/-- Settles O47: the step is the completed frame, whether or not a device takes it for a header. -/
theorem linkCompleteStep : Obligations.LinkCompleteStep := by
  intro s c ch hch hen hrole hrx hshift
  have hcomplete : ch.completeEnabled = true :=
    Bool.and_eq_true_iff.mpr ⟨Channel.linkOn_of_duplexMaster hen hrole hrx, hshift⟩
  refine ⟨_, ch.mask, _, _, linkStep_complete hch hcomplete, rfl, rfl, rfl, rfl, by simp, ?_⟩
  rw [State.completeFrame_chans, Channel.completed_eq]

/-! What a wire header leaves unchanged (R193, R199) -/

theorem exec_wireHeader {a : BitVec 6} {i : Instr}
    (hi : i ∈ [.wireWriteMb a, .wireReadMb a, .wireWriteSb a, .wireReadSb a]) (s : State) :
    ∃ b, exec i s = headerFrame b s := by
  simp only [List.mem_cons, List.not_mem_nil, or_false] at hi
  rcases hi with rfl | rfl | rfl | rfl <;> exact ⟨_, rfl⟩

/-- A channel that a frame on channel `c` has met: another one is as it was, and `c` keeps its control registers and all
that belongs to sending the next word. -/
def FrameKept (c n : Nat) (ch ch' : Channel) : Prop :=
  (n ≠ c → ch' = ch) ∧ ch'.ctrl1 = ch.ctrl1 ∧ ch'.ctrl2 = ch.ctrl2 ∧ ch'.txbuf = ch.txbuf ∧ ch'.txe = ch.txe
    ∧ ch'.shift = ch.shift ∧ ch'.ovrArm = ch.ovrArm

theorem frameKept_refl (c n : Nat) (ch : Channel) : FrameKept c n ch ch :=
  ⟨fun _ => rfl, rfl, rfl, rfl, rfl, rfl, rfl⟩

theorem frameKept_completed (c : Nat) (ch : Channel) (rx : Half) : FrameKept c c ch (ch.completed rx) :=
  ⟨fun hne => absurd rfl hne, rfl, rfl, rfl, rfl, rfl, rfl⟩

/-- Settles O50: the header completes the frame on the channel `lnk`, or there is none and nothing happens. -/
theorem wireHeaderFrame : Obligations.WireHeaderFrame := by
  intro s t a i hi h
  obtain ⟨b, hframe⟩ := exec_wireHeader hi s
  rcases headerFrame_next (hframe.symm.trans h) with rfl | ⟨ch, hch, -, -, rfl⟩
  · exact ⟨⟨rfl, rfl, rfl, rfl, rfl⟩, rfl, rfl, rfl, rfl, rfl, rfl, rfl, rfl, rfl, rfl, rfl, rfl, rfl,
      fun n y hy => ⟨y, hy, frameKept_refl _ n y⟩⟩
  · exact ⟨⟨rfl, rfl, rfl, rfl, rfl⟩, rfl, rfl, rfl, rfl, rfl, rfl, rfl, rfl, rfl, rfl, rfl, rfl, by simp,
      forall_getElem?_set (R := FrameKept s.lnk) hch (frameKept_completed _ _ _) fun n y _ => frameKept_refl _ n y⟩

/-! A data frame (R200, R201) -/

/-- The registers after a data frame: a write frame puts its byte at the pointer, but never in register 0x00 (R200). -/
def RefSlave.regAfterData (r : RefSlave) (tx : Byte) : Vector Byte 64 :=
  if r.phase = .write ∧ r.ptr ≠ 0#6 then r.reg.setIfInBounds r.ptr.toNat tx else r.reg

/-- Past its header a slave takes a frame into its registers and advances (R200, R201). -/
theorem RefSlave.frame8_data {r : RefSlave} (h : r.phase ≠ .header) (tx : Byte) :
    r.frame8 tx = RefSlave.advanced { r with reg := r.regAfterData tx } := by
  obtain ⟨reg, ptr, phase, mbf⟩ := r
  cases phase with
  | header => exact absurd rfl h
  | write => by_cases hptr : ptr = 0#6 <;> simp [RefSlave.frame8, RefSlave.regAfterData, hptr]
  | read => simp [RefSlave.frame8, RefSlave.regAfterData]

theorem RefSlave.getElem_regAfterData (r : RefSlave) (tx : Byte) (n : Fin 64) : (r.regAfterData tx)[n] =
    if r.phase = .write ∧ n.val = r.ptr.toNat ∧ n.val ≠ 0 then tx else r.reg[n] := by
  have hzero : r.ptr = 0#6 ↔ r.ptr.toNat = 0 := BitVec.toNat_inj.symm
  unfold RefSlave.regAfterData
  by_cases hwrite : r.phase = .write ∧ r.ptr ≠ 0#6
  · obtain ⟨hphase, hptr⟩ := hwrite
    by_cases hn : n.val = r.ptr.toNat
    · simp [hphase, hptr, hn, ← hzero]
    · simp [hphase, hptr, hn, Ne.symm hn]
  · have hother : ¬ (r.phase = .write ∧ n.val = r.ptr.toNat ∧ n.val ≠ 0) := fun ⟨hphase, hn, hn0⟩ =>
      hwrite ⟨hphase, fun hptr => hn0 (hn.trans (hzero.mp hptr))⟩
    rw [if_neg hwrite, if_neg hother]

/-- The only listener, in its read phase, answers the register at its pointer, which the mask of an 8-bit frame leaves
whole (R193, R201). -/
theorem State.slaveAnswer_read {s : State} {c : Nat} {d : Device} (hlisten : s.listeners c = [d])
    (hphase : d.slave.phase = .read) (tx : Half) :
    s.slaveAnswer c false tx &&& 0x00FF#16 = (d.slave.reg[d.slave.ptr.toNat]'d.slave.ptr.isLt).toHalf := by
  have hptr : d.slave.ptr.toNat < 64 := d.slave.ptr.isLt
  simp [State.slaveAnswer, hlisten, hphase, hptr, toHalf_masked]

/-- Settles O51: the slave hears the data frame, and when it reads alone its register is the answer. -/
theorem referenceSlaveData : Obligations.ReferenceSlaveData := by
  intro s c k ch d hch hen hwide hd hsel hphase
  have hbyte : (ch.shift &&& ch.mask).lowByte = ch.shift.lowByte := by
    rw [← Channel.lowByte_eq_masked hwide, lowByte_toHalf]
  have hheard : d.hearFrame s c ch.wide (ch.shift &&& ch.mask)
      = { d with slave := RefSlave.advanced { d.slave with reg := d.slave.regAfterData ch.shift.lowByte } } := by
    rw [hwide, Device.hearFrame_selected hsel, hbyte, RefSlave.frame8_data hphase]
  refine ⟨_, d.hearFrame s c ch.wide (ch.shift &&& ch.mask), linkStep_complete hch hen, by simp [hd], ?_⟩
  rw [hheard]
  refine ⟨rfl, rfl, rfl, d.slave.getElem_regAfterData ch.shift.lowByte, fun hread hlisten => ?_⟩
  refine ⟨ch.shift &&& ch.mask, d.slave.reg[d.slave.ptr.toNat]'d.slave.ptr.isLt, by simp, ?_⟩
  rw [State.completeFrame_trace, hwide, Channel.mask_of_narrow hwide, State.slaveAnswer_read hlisten hread]
  rfl

end Sys2Proof.Machine
end

section
/-! O27: the assertions of the pseudocode. O53: what FAULT keeps. -/

namespace Sys2Proof.Machine

/-- Settles O27: a line with an assertion goes on or raises. -/
theorem assertionsOfThePseudocode : Obligations.AssertionsOfThePseudocode := by
  intro s f rest cond code info hrun hcontract
  rw [exec_of_contract hrun hcontract, State.setTop_of_running hrun]
  rfl

/-- What FAULT keeps until HOST's reset (R224): the run state, the stack, the operand latches, the fault registers, the
pins, the sessions, HDR, RESULT and POLLS; a command at the port waits. -/
structure FaultKept (s t : State) : Prop where
  mode : t.mode = .fault
  pc : t.pc = s.pc
  latches : t.latches = s.latches
  faultCode : t.faultCode = s.faultCode
  faultInfo : t.faultInfo = s.faultInfo
  pins : t.pins = s.pins
  inits : t.inits = s.inits
  hdr : t.hdr = s.hdr
  result : t.result = s.result
  polls : t.polls = s.polls
  command : ∀ d, s.inbox.head? = some (.command d) → t.inbox = s.inbox

/-- In FAULT only HOST's reset, a buffer or table it gives, and the link agents have a step (R37, R222, R224). -/
theorem StepEffect.faultKept {s t : State} (h : StepEffect s t) (hfault : s.mode = .fault)
    (hreset : ¬ s.hostActs .reset) : FaultKept s t := by
  cases h with
  | accept hact | reject hact => exact absurd hact.2.2 (by simp [State.actAllowed, hfault])
  | reset hact => exact absurd hact hreset
  | line hseq => exact nomatch hfault.symm.trans hseq.2.1
  | buffer hact | table hact =>
    exact ⟨hfault, rfl, rfl, rfl, rfl, rfl, rfl, rfl, rfl, rfl, fun d hd => nomatch hact.2.1.symm.trans hd⟩
  | _ => exact ⟨hfault, rfl, rfl, rfl, rfl, rfl, rfl, rfl, rfl, rfl, fun _ _ => rfl⟩

/-- Settles O53, by cases on what the step does. -/
theorem faultIsLeftByResetOnly : Obligations.FaultIsLeftByResetOnly := by
  intro s t hfault hstep hreset
  obtain ⟨hmode, hpc, hlatches, hcode, hinfo, hpins, hinits, hhdr, hresult, hpolls, hcommand⟩ :=
    (stepEffect_of_step hstep).faultKept hfault hreset
  exact ⟨hmode, hpc, hlatches, hcode, hinfo, hpins, hinits, hhdr, hresult, hpolls, hcommand⟩

end Sys2Proof.Machine
end

section
/-! O22: which lines raise EnumRange. -/

namespace Sys2Proof.Machine

/-! The enumerants (R100, R133, R214) -/

theorem ssFields_eq_none_iff : ∀ ss : Byte, ssFields ss = none ↔ 3 ≤ ss.toNat := by decide

/-- The line of an enumerant: it decodes that code, and has no fields to program where the code is outside its set. -/
theorem enumerant_some {line n : Nat} {cfg : CfgRecord} {code : Byte} (h : enumerant line cfg = some (code, n)) :
    (5 ≤ line ∧ line ≤ 11) ∧ initCode line cfg = code ∧ (initFields line cfg = none ↔ n ≤ code.toNat) := by
  unfold enumerant at h
  split at h
  case h_4 => cases h; exact ⟨by decide, rfl, ssFields_eq_none_iff _⟩
  case h_8 => cases h
  all_goals
    cases h
    exact ⟨by decide, rfl, by simp only [initFields, ite_eq_right_iff, reduceCtorEq, imp_false, not_lt]⟩

/-- A line of SPI_INIT without fields to program is an enumerant's (R133). -/
theorem enumerant_of_initFields {line : Nat} {cfg : CfgRecord} (h : initFields line cfg = none) :
    ∃ code n, enumerant line cfg = some (code, n) := by
  unfold initFields at h
  split at h
  case h_8 => cases h
  all_goals exact ⟨_, _, rfl⟩

/-! Where EnumRange comes from (R212, R221) -/

theorem FaultCause.eq_enumRange {x : FaultCause} (h : x.code = 2#8) : x = .enumRange := by
  cases x with
  | enumRange => rfl
  | _ => exact nomatch h

/-- The cause is another than EnumRange, or SPI_INIT stands at a line whose code is outside its set (R214). -/
def Frame.mayRaise (f : Frame) (x : FaultCause) : Prop :=
  x = .enumRange → (∃ count table, f.op = .spiInit count table) ∧ initFields f.line f.cfg = none

/-- As to faults, a line of `f` leaves FAULT unentered or raises a cause it may raise (R222). -/
inductive FaultEffect (s : State) (f : Frame) : State → Prop
  | noFault {t : State} (h : t.mode ≠ .fault) : FaultEffect s f t
  | raise (x : FaultCause) (info : Word) (h : f.mayRaise x) : FaultEffect s f (s.raise x info)

section Parts

variable {s t : State} {f g : Frame} {c : Nat} {r : Reg} (hmode : s.mode ≠ .fault)

include hmode

/-- An assertion is never about an enumerant (R213, R215, R216, R218). -/
theorem FaultEffect.of_assertLine {cond : Bool} {x : FaultCause} {info : Word}
    (h : assertLine cond x info f s = .next t) (hx : x ≠ .enumRange) : FaultEffect s f t := by
  rcases assertLine_next h with ⟨-, rfl⟩ | ⟨-, rfl⟩
  · exact .noFault hmode
  · exact .raise x info fun heq => absurd heq hx

theorem FaultEffect.of_waitUntil {fl : Flag} {v : Bool} (h : waitUntil c fl v f s = .next t) : FaultEffect s f t := by
  obtain ⟨ch, -, ⟨-, rfl⟩ | ⟨-, -, rfl⟩ | ⟨-, -, rfl⟩ | ⟨-, -, rfl⟩⟩ := waitUntil_next h
  · exact .noFault hmode
  · exact .noFault hmode
  · exact .noFault hmode
  · exact .raise _ _ nofun

theorem FaultEffect.of_regRead {k : Half → Frame} (h : regRead c r s (fun d s' => .next (s'.setTop (k d))) = .next t) :
    FaultEffect s f t := by
  obtain ⟨ch, -, hk⟩ := regRead_next h
  cases hk
  exact .noFault hmode

theorem FaultEffect.of_regWrite {v : Half} (h : regWrite c r v s (fun s' => .next (s'.setTop g)) = .next t) :
    FaultEffect s f t := by
  obtain ⟨ch, ch', -, -, hk⟩ := regWrite_next h
  cases hk
  exact .noFault hmode

theorem FaultEffect.of_loopHead {ch : Byte} (h : loopHead ch f s = .next t) : FaultEffect s f t := by
  obtain ⟨-, rfl⟩ := loopHead_next h
  exact .noFault hmode

theorem FaultEffect.of_headerLine {addr hdr : Byte} (h : headerLine addr hdr f s = .next t) : FaultEffect s f t := by
  obtain ⟨-, rfl⟩ := headerLine_next h
  exact .noFault hmode

theorem FaultEffect.of_ret : FaultEffect s f s.ret := by
  refine .noFault fun hfault => ?_
  rcases s.ret_mode with h | h
  · exact hmode (h.symm.trans hfault)
  · exact nomatch h.symm.trans hfault

theorem FaultEffect.of_chipSelect {level : Bool} {port pin : Byte} (h : chipSelect level port pin f s = .next t) :
    FaultEffect s f t := by
  rcases chipSelect_next h with ⟨-, h⟩ | ⟨-, h⟩ | ⟨-, rfl⟩ | ⟨-, rfl⟩
  · exact .of_assertLine hmode h nofun
  · exact .of_assertLine hmode h nofun
  · exact .noFault hmode
  · exact .of_ret hmode

theorem FaultEffect.of_headerFrame {b : Byte} (h : headerFrame b s = .next t) : FaultEffect s f t := by
  rcases headerFrame_next h with rfl | ⟨ch, -, -, -, rfl⟩ <;> exact .noFault hmode

theorem FaultEffect.of_initLine {count : Half} {table : Word} (hop : f.op = .spiInit count table)
    (h : initLine count f s = .next t) : FaultEffect s f t := by
  rcases initLine_next h with ⟨hnone, rfl⟩ | ⟨fields, fld, v, ch, -, -, -, ⟨-, rfl⟩ | ⟨-, ch', -, rfl⟩⟩
  · exact .raise _ _ fun _ => ⟨⟨count, table, hop⟩, hnone⟩
  · exact .noFault hmode
  · exact .noFault hmode

end Parts

section Lines

variable {s t : State} {f : Frame} {rest : List Frame} (hrun : s.running f rest) (hmode : s.mode ≠ .fault)

include hrun hmode

theorem faultEffect_spiInit {count : Half} {table : Word} (hop : f.op = .spiInit count table)
    (h : execSpiInit count table s = .next t) : FaultEffect s f t := by
  rw [execSpiInit, operation_of_running hrun] at h
  split at h
  case h_1 | h_4 => cases h; exact .noFault hmode
  case h_2 =>
    obtain ⟨-, cfg, -, rfl⟩ := initRecord_next h
    exact .noFault hmode
  case h_3 => exact .of_assertLine hmode h nofun
  case h_13 => cases h; exact .of_ret hmode
  case h_14 => cases h
  all_goals exact .of_initLine hmode hop h

theorem faultEffect_spiTransfer {ch : Byte} {count : Half} {buf : Word}
    (h : execSpiTransfer ch count buf s = .next t) : FaultEffect s f t := by
  rw [execSpiTransfer, operation_of_running hrun] at h
  split at h
  case h_1 | h_2 | h_3 => exact .of_assertLine hmode h nofun
  case h_4 => exact .of_loopHead hmode h
  case h_5 | h_8 | h_9 => exact .of_waitUntil hmode h
  case h_6 =>
    obtain ⟨e, -, rfl⟩ := fetchCell_next h
    exact .noFault hmode
  case h_7 => exact .of_regWrite hmode h
  case h_10 | h_11 => exact .of_regRead hmode h
  case h_12 => cases h; exact .of_ret hmode
  case h_13 => cases h

theorem faultEffect_spiReceive {ch : Byte} {count : Half} {buf : Word}
    (h : execSpiReceive ch count buf s = .next t) : FaultEffect s f t := by
  rw [execSpiReceive, operation_of_running hrun] at h
  split at h
  case h_1 | h_2 | h_3 => exact .of_assertLine hmode h nofun
  case h_4 => exact .of_loopHead hmode h
  case h_5 => exact .of_regWrite hmode h
  case h_6 => exact .of_waitUntil hmode h
  case h_7 => exact .of_regRead hmode h
  case h_8 =>
    obtain ⟨u, hu, rfl⟩ := storeCell_next h
    rcases bufWrite_some hu with ⟨-, -, rfl⟩ | ⟨-, -, rfl⟩ <;> exact .noFault hmode
  case h_9 => cases h; exact .of_ret hmode
  case h_10 => cases h

theorem faultEffect_spiRegWrite {a v : Word} (h : execSpiRegWrite a v s = .next t) : FaultEffect s f t := by
  rw [execSpiRegWrite, operation_of_running hrun] at h
  split at h
  case h_1 =>
    rcases memWrite_next h with ⟨-, ⟨c, r, ch, ch', -, -, -, hk⟩ | ⟨-, -, hk⟩⟩ <;> cases hk <;> exact .noFault hmode
  case h_2 => cases h; exact .of_ret hmode
  case h_3 => cases h

theorem faultEffect_spiRegRead {a : Word} (h : execSpiRegRead a s = .next t) : FaultEffect s f t := by
  rw [execSpiRegRead, operation_of_running hrun] at h
  split at h
  case h_1 =>
    rcases memRead_next h with ⟨-, ⟨c, r, ch, -, -, hk⟩ | ⟨-, -, hk⟩⟩ <;> cases hk <;> exact .noFault hmode
  case h_2 => cases h; exact .of_ret hmode
  case h_3 => cases h

theorem faultEffect_accInit {ch port pin : Byte} (h : execAccInit ch port pin s = .next t) : FaultEffect s f t := by
  rw [execAccInit, operation_of_running hrun] at h
  split at h
  case h_5 => cases h; exact .of_ret hmode
  case h_6 => cases h
  all_goals cases h; exact .noFault hmode

theorem faultEffect_accWrite {ch port pin addr value : Byte} (h : execAccWrite ch port pin addr value s = .next t) :
    FaultEffect s f t := by
  rw [execAccWrite, operation_of_running hrun] at h
  split at h
  case h_1 => exact .of_headerLine hmode h
  case h_6 => cases h; exact .of_ret hmode
  case h_7 => cases h
  all_goals cases h; exact .noFault hmode

theorem faultEffect_accRead {ch port pin addr : Byte} {count : Half} {buf : Word}
    (h : execAccRead ch port pin addr count buf s = .next t) : FaultEffect s f t := by
  rw [execAccRead, operation_of_running hrun] at h
  split at h
  case h_1 => exact .of_headerLine hmode h
  case h_6 => cases h; exact .of_ret hmode
  case h_7 => cases h
  all_goals cases h; exact .noFault hmode

omit hmode in
/-- A line raises EnumRange at an enumerant of SPI_INIT only (R214). -/
theorem faultEffect_of_exec (h : exec f.op s = .next t) : FaultEffect s f t := by
  have hmode : s.mode ≠ .fault := by simp [hrun.1]
  cases hop : f.op with rw [hop] at h
  | spiInit count table => exact faultEffect_spiInit hrun hmode hop h
  | spiTransfer ch count buf => exact faultEffect_spiTransfer hrun hmode h
  | spiReceive ch count buf => exact faultEffect_spiReceive hrun hmode h
  | spiRegWrite a v => exact faultEffect_spiRegWrite hrun hmode h
  | spiRegRead a => exact faultEffect_spiRegRead hrun hmode h
  | accInit ch port pin => exact faultEffect_accInit hrun hmode h
  | accWrite ch port pin addr value => exact faultEffect_accWrite hrun hmode h
  | accRead ch port pin addr count buf => exact faultEffect_accRead hrun hmode h
  | csAssert port pin | csDeassert port pin =>
    exact .of_chipSelect hmode ((operation_of_running hrun).symm.trans h)
  | wireWriteMb a | wireReadMb a | wireWriteSb a | wireReadSb a => exact .of_headerFrame hmode h

end Lines

/-- A step that enters FAULT with EnumRange's code is SEQ's, at an enumerant of SPI_INIT (R214, R221). -/
theorem enumRange_of_step {s t : State} (hstep : step s = .next t) (hs : s.mode ≠ .fault) (ht : t.mode = .fault)
    (hcode : t.faultCode = 2#8) :
    ∃ f, s.seqOn f ∧ (∃ count table, f.op = .spiInit count table) ∧ initFields f.line f.cfg = none := by
  cases stepEffect_of_step hstep with
  | reject => exact nomatch hcode
  | accept | reset => exact nomatch ht
  | @line f rest _ hseq hrun =>
    have hexec : exec f.op s.spendTurn = .next t := (step_of_running hseq.1 hrun).symm.trans hstep
    cases faultEffect_of_exec (s := s.spendTurn) hrun hexec with
    | noFault h => exact absurd ht h
    | raise x info h => exact ⟨f, hseq, h (FaultCause.eq_enumRange hcode)⟩
  | _ => exact absurd ht hs

/-- Settles O22: the line of an enumerant raises or runs on as its code is outside or inside its set, and no other line
and no other agent raises EnumRange. -/
theorem initRejectsEnumOutOfRange : Obligations.InitRejectsEnumOutOfRange := by
  refine ⟨fun s f rest count table code n hrun hop henum => ?_, fun s t hstep hs ht hcode => ?_⟩
  · obtain ⟨⟨hlo, hhi⟩, hinit, hnone⟩ := enumerant_some henum
    rw [exec_spiInit_of_fieldLine hrun hop hlo (by omega)]
    refine ⟨fun hout => ?_, fun hin t h => ?_⟩
    · rw [initLine, hnone.mpr hout, hinit]
      rfl
    · rcases initLine_next h with ⟨hfields, -⟩ | ⟨fields, fld, v, ch, -, -, -, ⟨-, rfl⟩ | ⟨-, ch', -, rfl⟩⟩
      · exact absurd (hnone.mp hfields) (by omega)
      · exact hrun.1
      · exact hrun.1
  · obtain ⟨f, hseq, ⟨count, table, hop⟩, hfields⟩ := enumRange_of_step hstep hs ht hcode
    obtain ⟨code, n, henum⟩ := enumerant_of_initFields hfields
    exact ⟨f, count, table, code, n, hseq, hop, henum⟩

end Sys2Proof.Machine
end

section
/-! O11: the block as R240 to R246 leave it, whatever the parameters and the items without a reset value. -/

namespace Sys2Proof.Machine

/-! A channel (R241) -/

theorem Channel.atReset_statusWord (fill : Unspec → Word) (c : Nat) :
    (Channel.atReset fill c).statusWord = 0x0002#16 := by
  simp [Channel.statusWord, Channel.atReset]

theorem Channel.atReset_settled (fill : Unspec → Word) (c : Nat) : (Channel.atReset fill c).settled = true := rfl

/-! The block (R240 to R246) -/

section ResetWith

variable (p : Params) (fill : Unspec → Word)

theorem State.resetWith_chans_length : (State.resetWith p fill).chans.length = p.nCh := by
  simp [State.resetWith]

theorem State.atReset_of_mem_chans {ch : Channel} (h : ch ∈ (State.resetWith p fill).chans) :
    ∃ c, ch = Channel.atReset fill c := by
  obtain ⟨c, -, rfl⟩ := List.mem_map.mp h
  exact ⟨c, rfl⟩

theorem State.resetWith_resetValues : (State.resetWith p fill).ResetValues where
  channels := State.resetWith_chans_length p fill
  registers := by
    intro c ch hch
    obtain ⟨n, rfl⟩ := State.atReset_of_mem_chans p fill (List.mem_of_getElem? hch)
    exact ⟨rfl, rfl, Channel.atReset_statusWord fill n, rfl, rfl⟩
  idle := rfl
  position := rfl
  operands := rfl
  faultCode := rfl
  faultInfo := rfl
  polls := rfl
  sessions := fun x => if_neg (List.not_mem_nil (a := x))
  trace := rfl

theorem State.resetWith_positionOk : (State.resetWith p fill).positionOk = true :=
  State.positionOk_of_stopped (State.resetWith_chans_length p fill) (by simp [State.resetWith]) rfl (.inr rfl)

theorem State.resetWith_listsOk : (State.resetWith p fill).listsOk = true :=
  (State.listsOk_iff _).mpr ⟨reset_memory_wf, rfl⟩

theorem State.resetWith_flagsOk : (State.resetWith p fill).flagsOk = true := by
  refine (State.flagsOk_iff _).mpr fun ch hch => ?_
  obtain ⟨c, rfl⟩ := State.atReset_of_mem_chans p fill hch
  exact Channel.atReset_settled fill c

end ResetWith

/-- The presumed parameters satisfy R7, R61 and R64 (log 2). -/
theorem reset_params_legal : State.reset.params.legal = true := by decide

/-- Settles O11: the reset state is the reset of the block under the standard parameters, and its stack is empty. -/
theorem resetStateHoldsSpecValues : Obligations.ResetStateHoldsSpecValues :=
  ⟨State.resetWith_resetValues _ _, reset_params_legal, State.resetWith_positionOk _ _, State.resetWith_listsOk _ _,
    State.resetWith_flagsOk _ _, State.selectOk_of_empty rfl, rfl, State.entryOk_of_empty rfl⟩

end Sys2Proof.Machine
end
